-- ==== Sys2Proof/Word.lean ====
section
/-! DEFINITION. The words of the block: levels, analog sample codes, the 8-bit dispatch key, the 4-bit classified run, the 2-bit encoder
symbol. Rules R63, R64, R69 of spec/30_encoding.md. -/

namespace Sys2Proof

/-- A level is one bit: `true` is high (1), `false` is low (0) (00_scope.md section 7.1). -/
abbrev Level := Bool

/-- A sample of the analog source: the code of a value of the OPEN type ANALOG_T (R2, R102). What order the codes have is
`Config.analogPlace` (log entry 14). -/
abbrev AnalogCode := Nat

/-- The dispatch key KEY of R64. -/
abbrev Key := BitVec 8

/-- The classified run CLS of R63. -/
abbrev Cls := BitVec 4

/-- An encoder output symbol HB2 of R69: bit 1 is the first half-bit in time, bit 0 the second. -/
abbrev Hb2 := BitVec 2

/-- The two encoded forms an opcode-table row can have (R60). -/
inductive Word where
  | key (k : Key)
  | hb2 (h : Hb2)
  deriving DecidableEq, Repr

end Sys2Proof
end

