-- ==== Sys2Proof/Machine/Item.lean ====
section
/-! DEFINITION. The Decoded Item, the unit of output: R30, R67 of spec/. -/

namespace Sys2Proof.Machine

/-- The kinds of R30. No rule emits `parityError` (R33, R174). -/
inductive Kind where
  | data
  | frameError
  | parityError
  deriving DecidableEq, Repr, Inhabited

/-- A Decoded Item (R30). `value` and `bitCount` are absent where they carry no information, `stopIndex` where the wider
data model has no second bound; the block always supplies one (R33). -/
structure Item where
  kind : Kind
  value : Option Nat
  bitCount : Option Nat
  startIndex : Nat
  stopIndex : Option Nat
  deriving DecidableEq, Repr, Inhabited

end Sys2Proof.Machine
end

