-- ==== Sys2Proof/Config.lean ====
section
/-! DEFINITION. What an implementation fixes: the literals of R2 (each stated by the spec, one definition per literal, as
93_implementation_defined.md section 2 asks), the OPEN analog order and threshold, and the free values. -/

namespace Sys2Proof.Config

/-- MIN_N: least N for which a pass decodes (R2, R82). -/
def minN : Nat := 3
/-- HALF_NUM and HALF_DEN: a run is half-bit class when `HALF_DEN*L > HALF_NUM*N` (R2, R122). -/
def halfNum : Nat := 1
/-- HALF_DEN (R2). -/
def halfDen : Nat := 2
/-- SUBT_NUM and SUBT_DEN: a run is sub-triple when `SUBT_DEN*L < SUBT_NUM*N` (R2, R123). -/
def subtNum : Nat := 3
/-- SUBT_DEN (R2). -/
def subtDen : Nat := 2
/-- LONG_MULT: a run is long when `L >= LONG_MULT*N` (R2, R121). -/
def longMult : Nat := 3
/-- STOP_SPAN_MULT: the span of a Data item in multiples of N (R2, R144). -/
def stopSpanMult : Nat := 4
/-- BAUD_DEFAULT: the reset value of BAUD_RATE (R2, R28). -/
def baudDefault : Nat := 2400
/-- ENC_IDLE_HALFBITS: the trailing high half-bits of an encoded frame (R2, R164). -/
def encIdleHalfbits : Nat := 2

/-- ANALOG_T: OPEN, any type with a total order (R2, R102, D8). Each code of a sample has a place in that order. It has no
body, so a claim holds for every order: nothing says that some code lies below another. DEDUCED, log entry 14. -/
opaque analogPlace : AnalogCode → Rat

/-- THRESHOLD: OPEN, the code of a constant of the instance (R2, R102, D8). It has no body: a claim holds for every
threshold. -/
opaque threshold : AnalogCode

/-- The free values: an arbitrary natural for each index (log entry 3). -/
opaque freeNat : Nat → Nat

/-- An arbitrary item for each index: what a host read of the store returns during a pass (R50, U1, log entry 3). -/
opaque freeItem : Nat → Sys2Proof.Machine.Item

end Sys2Proof.Config
end

