-- ==== Sys2Proof/Syntax.lean ====
section
/-! DEFINITION. The instructions: one constructor per row of spec/opcode_table.json.

A transition's arguments are the key bits outside its row's mask, under the letters of the table's "encoding" column:
`v` the level, `h` is_half_bit, `t` is_sub_triple, `g` is_long, `p` the pending match. R70(d) calls them ignored bits;
they are kept so that encoding an instruction gives its key back (DESIGN CHOICE, log entry 18), and because `v` is an
operand of R139 and of R141 to R143. -/

namespace Sys2Proof

inductive Instr where
  /-- IDLE.ARM, `0001ht1p`, R130. -/
  | idleArm (h t p : Bool)
  /-- IDLE.HOLD, `000vhtgp`, R131. -/
  | idleHold (v h t g p : Bool)
  /-- SF1.ACCEPT, `001011gp`, R132. -/
  | sf1Accept (g p : Bool)
  /-- SF1.REJECT, `001vhtgp`, R133. -/
  | sf1Reject (v h t g p : Bool)
  /-- SS2.HALF, `0101110p`, R134. -/
  | ss2Half (p : Bool)
  /-- SS2.FULL, `0101100p`, R135. -/
  | ss2Full (p : Bool)
  /-- SS2.REJECT, `010vhtgp`, R136. -/
  | ss2Reject (v h t g p : Bool)
  /-- DF1.SHORT, `011v0tgp`, R137. -/
  | df1Short (v t g p : Bool)
  /-- DF1.STOP, `011v1t1p`, R138. -/
  | df1Stop (v t p : Bool)
  /-- DF1.NEXT, `011v1t0p`, R139. -/
  | df1Next (v t p : Bool)
  /-- DS2.BIT_STOP, `100v1t10`, R141. -/
  | ds2BitStop (v t : Bool)
  /-- DS2.BIT_HALF, `100v1100`, R142. -/
  | ds2BitHalf (v : Bool)
  /-- DS2.BIT_FULL, `100v1000`, R143. -/
  | ds2BitFull (v : Bool)
  /-- DS2.ERR, `100vhtgp`, R140. -/
  | ds2Err (v h t g p : Bool)
  /-- ENC.START, HB2 `01`, the first symbol of a frame, R161. -/
  | encStart
  /-- ENC.BIT1, HB2 `01`, R162. -/
  | encBit1
  /-- ENC.BIT0, HB2 `10`, R163. -/
  | encBit0
  /-- ENC.IDLE, HB2 `11`, R164. -/
  | encIdle
  deriving DecidableEq, Repr

end Sys2Proof
end

