-- ==== Sys2Proof/WellFormed.lean ====
section
/-! DEFINITION. Which instruction terms are well formed: the ones whose key their own row is the first to match. The
four catch-all rows of R65 match keys that an earlier row of the same state takes. -/

namespace Sys2Proof

/-- A catch-all row's bits must not spell a key that a row of lower order takes (R65). -/
def Instr.wf : Instr → Bool
  | .idleHold v _ _ g _ => !(v && g)
  | .sf1Reject v h t _ _ => !(!v && h && t)
  | .ss2Reject v h _ g _ => !(v && h && !g)
  | .ds2Err _ h _ _ p => !(h && !p)
  | .idleArm _ _ _ => true
  | .sf1Accept _ _ => true
  | .ss2Half _ => true
  | .ss2Full _ => true
  | .df1Short _ _ _ _ => true
  | .df1Stop _ _ _ => true
  | .df1Next _ _ _ => true
  | .ds2BitStop _ _ => true
  | .ds2BitHalf _ => true
  | .ds2BitFull _ => true
  | .encStart => true
  | .encBit1 => true
  | .encBit0 => true
  | .encIdle => true

end Sys2Proof
end

