-- ==== Sys2Proof/Decode.lean ====
section
/-! DEFINITION. Decoding the dispatch key by the match/mask table of R65 and the encoder symbols of R69, and the encoder
of both. A decoder rejects by name (R66, R70 a). -/

namespace Sys2Proof

/-- Why a word is no instruction. -/
inductive Reject where
  /-- The state field is 5: Stop is a pseudo-state and never held between steps (R66). -/
  | stopPseudoState
  /-- The state field is 6: Error is a pseudo-state (R66). -/
  | errorPseudoState
  /-- The state field is 7: reserved (R66). -/
  | reservedState
  /-- HB2 `00` is no symbol of R69. -/
  | noSuchSymbol
  /-- A frame's first symbol is the start bit `01` (R69, R161). -/
  | notAStartSymbol
  deriving DecidableEq, Repr

/-- What a decoder answers. -/
inductive Decoded where
  | instr (i : Instr)
  | reject (r : Reject)
  deriving DecidableEq, Repr

/-- The bits of CLS (R63): level, hb, st, lg from bit 3 down to bit 0. -/
def packCls (v h t g : Bool) : Cls :=
  BitVec.ofBool v ++ BitVec.ofBool h ++ BitVec.ofBool t ++ BitVec.ofBool g

/-- The bits of KEY (R64): the state code, then CLS, then pm. -/
def packKey (sss : BitVec 3) (c : Cls) (p : Bool) : Key :=
  sss ++ c ++ BitVec.ofBool p

/-- One row of the table of R65. -/
structure Row where
  mnemonic : String
  pattern : Key
  mask : Key
  /-- The instruction a matching key stands for, its ignored bits read from the key. -/
  build : Key → Instr

/-- The key bits under the letters of the pattern `sssvhtgp`. -/
def keyV (k : Key) : Bool := k.getLsbD 4
/-- Bit 3 of KEY: `h`. -/
def keyH (k : Key) : Bool := k.getLsbD 3
/-- Bit 2 of KEY: `t`. -/
def keyT (k : Key) : Bool := k.getLsbD 2
/-- Bit 1 of KEY: `g`. -/
def keyG (k : Key) : Bool := k.getLsbD 1
/-- Bit 0 of KEY: `p`. -/
def keyP (k : Key) : Bool := k.getLsbD 0

/-- The state field of KEY, bits 7 to 5. -/
def keyState (k : Key) : BitVec 3 := k.extractLsb' 5 3

/-- R65, orders 1 to 7: the rows of Idle, StartFirstHalf and StartSecondHalf. -/
def startRows : List Row :=
  [ ⟨"IDLE.ARM", 0x12, 0xF2, fun k => .idleArm (keyH k) (keyT k) (keyP k)⟩,
    ⟨"IDLE.HOLD", 0x00, 0xE0, fun k => .idleHold (keyV k) (keyH k) (keyT k) (keyG k) (keyP k)⟩,
    ⟨"SF1.ACCEPT", 0x2C, 0xFC, fun k => .sf1Accept (keyG k) (keyP k)⟩,
    ⟨"SF1.REJECT", 0x20, 0xE0, fun k => .sf1Reject (keyV k) (keyH k) (keyT k) (keyG k) (keyP k)⟩,
    ⟨"SS2.HALF", 0x5C, 0xFE, fun k => .ss2Half (keyP k)⟩,
    ⟨"SS2.FULL", 0x58, 0xFE, fun k => .ss2Full (keyP k)⟩,
    ⟨"SS2.REJECT", 0x40, 0xE0, fun k => .ss2Reject (keyV k) (keyH k) (keyT k) (keyG k) (keyP k)⟩ ]

/-- R65, orders 8 to 14: the rows of DataFirstHalf and DataSecondHalf. -/
def dataRows : List Row :=
  [ ⟨"DF1.SHORT", 0x60, 0xE8, fun k => .df1Short (keyV k) (keyT k) (keyG k) (keyP k)⟩,
    ⟨"DF1.STOP", 0x6A, 0xEA, fun k => .df1Stop (keyV k) (keyT k) (keyP k)⟩,
    ⟨"DF1.NEXT", 0x68, 0xEA, fun k => .df1Next (keyV k) (keyT k) (keyP k)⟩,
    ⟨"DS2.BIT_STOP", 0x8A, 0xEB, fun k => .ds2BitStop (keyV k) (keyT k)⟩,
    ⟨"DS2.BIT_HALF", 0x8C, 0xEF, fun k => .ds2BitHalf (keyV k)⟩,
    ⟨"DS2.BIT_FULL", 0x88, 0xEF, fun k => .ds2BitFull (keyV k)⟩,
    ⟨"DS2.ERR", 0x80, 0xE0, fun k => .ds2Err (keyV k) (keyH k) (keyT k) (keyG k) (keyP k)⟩ ]

/-- The table of R65 in its order. -/
def keyTable : List Row := startRows ++ dataRows

/-- `(KEY AND mask) = match`. -/
def Row.takes (r : Row) (k : Key) : Bool := k &&& r.mask == r.pattern

/-- The matching row of lowest order (R65). -/
def firstRow (k : Key) : List Row → Option Row
  | [] => none
  | r :: rs => if r.takes k then some r else firstRow k rs

/-- The name under which a key that no row matches is rejected (R66). -/
def rejectState (k : Key) : Reject :=
  if keyState k = 5 then .stopPseudoState else if keyState k = 6 then .errorPseudoState else .reservedState

/-- Decoding a dispatch key (R65). -/
def decodeKey (k : Key) : Decoded :=
  match firstRow k keyTable with
  | some r => .instr (r.build k)
  | none => .reject (rejectState k)

/-- Reading an encoder symbol at the first or at a later position of a frame (R69). -/
def decodeHb2 (first : Bool) (h : Hb2) : Decoded :=
  if h = 0 then .reject .noSuchSymbol
  else if first then (if h = 1 then .instr .encStart else .reject .notAStartSymbol)
  else if h = 1 then .instr .encBit1 else if h = 2 then .instr .encBit0 else .instr .encIdle

/-- Decoding either form; `first` matters to encoder symbols only. -/
def decodeWord (first : Bool) : Word → Decoded
  | .key k => decodeKey k
  | .hb2 h => decodeHb2 first h

/-- The word of an instruction, from the patterns of R65 and R69. -/
def encode : Instr → Word
  | .idleArm h t p => .key (packKey 0 (packCls true h t true) p)
  | .idleHold v h t g p => .key (packKey 0 (packCls v h t g) p)
  | .sf1Accept g p => .key (packKey 1 (packCls false true true g) p)
  | .sf1Reject v h t g p => .key (packKey 1 (packCls v h t g) p)
  | .ss2Half p => .key (packKey 2 (packCls true true true false) p)
  | .ss2Full p => .key (packKey 2 (packCls true true false false) p)
  | .ss2Reject v h t g p => .key (packKey 2 (packCls v h t g) p)
  | .df1Short v t g p => .key (packKey 3 (packCls v false t g) p)
  | .df1Stop v t p => .key (packKey 3 (packCls v true t true) p)
  | .df1Next v t p => .key (packKey 3 (packCls v true t false) p)
  | .ds2BitStop v t => .key (packKey 4 (packCls v true t true) false)
  | .ds2BitHalf v => .key (packKey 4 (packCls v true true false) false)
  | .ds2BitFull v => .key (packKey 4 (packCls v true false false) false)
  | .ds2Err v h t g p => .key (packKey 4 (packCls v h t g) p)
  | .encStart => .hb2 1
  | .encBit1 => .hb2 1
  | .encBit0 => .hb2 2
  | .encIdle => .hb2 3

/-- Whether an instruction stands first in a frame: the position that tells ENC.START from ENC.BIT1 (R69). -/
def Instr.isFirst : Instr → Bool
  | .encStart => true
  | _ => false

/-- The mnemonic of spec/opcode_table.json. -/
def Instr.mnemonic : Instr → String
  | .idleArm _ _ _ => "IDLE.ARM"
  | .idleHold _ _ _ _ _ => "IDLE.HOLD"
  | .sf1Accept _ _ => "SF1.ACCEPT"
  | .sf1Reject _ _ _ _ _ => "SF1.REJECT"
  | .ss2Half _ => "SS2.HALF"
  | .ss2Full _ => "SS2.FULL"
  | .ss2Reject _ _ _ _ _ => "SS2.REJECT"
  | .df1Short _ _ _ _ => "DF1.SHORT"
  | .df1Stop _ _ _ => "DF1.STOP"
  | .df1Next _ _ _ => "DF1.NEXT"
  | .ds2BitStop _ _ => "DS2.BIT_STOP"
  | .ds2BitHalf _ => "DS2.BIT_HALF"
  | .ds2BitFull _ => "DS2.BIT_FULL"
  | .ds2Err _ _ _ _ _ => "DS2.ERR"
  | .encStart => "ENC.START"
  | .encBit1 => "ENC.BIT1"
  | .encBit0 => "ENC.BIT0"
  | .encIdle => "ENC.IDLE"

/-- The instruction of an answer, if it is one. -/
def Decoded.toOption : Decoded → Option Instr
  | .instr i => some i
  | .reject _ => none

/-- Which format the table's words are read in when KEY and HB2 words share one numbering (log entry 9): a word shorter
than a byte is HB2, and so are the bytes 1 to 3, which no run forms as a KEY (R70 c). DESIGN CHOICE. -/
def tableWordIsHb2 (nbits w : Nat) : Bool := nbits < 8 || (0 < w && w < 4)

/-- A word numbered as spec/opcode_table.json numbers it. An HB2 word is read as the first of a frame if it is the start
symbol, else at a later position (log entry 9). -/
def tableWord (nbits w : Nat) : Option Word :=
  if nbits = 0 ∨ 8 < nbits ∨ 2 ^ nbits ≤ w then none
  else if tableWordIsHb2 nbits w then (if w < 4 then some (.hb2 (BitVec.ofNat 2 w)) else none)
  else some (.key (BitVec.ofNat 8 w))

/-- The instruction read from a table word. -/
def decodeTableWord (nbits w : Nat) : Option Instr :=
  match tableWord nbits w with
  | some x => (decodeWord (x == .hb2 1) x).toOption
  | none => none

end Sys2Proof
end

