-- ==== Sys2Proof/Machine/State.lean ====
section
/-! DEFINITION. The state: the session registers (R10 to R18), the host interface registers (R20 to R28), the sample space
and the item store (R40), and the model's own bookkeeping of the encoder and of the host's moves. -/

namespace Sys2Proof.Machine

/-- The values of the register `state` between steps (R12). -/
inductive FsmState where
  | idle
  | startFirstHalf
  | startSecondHalf
  | dataFirstHalf
  | dataSecondHalf
  deriving DecidableEq, Repr

/-- The nine host registers (R28). -/
inductive HostReg where
  | ctrl
  | status
  | sampleRate
  | baudRate
  | startOffset
  | startOffsetValid
  | srcSel
  | length
  | itemCount
  deriving DecidableEq, Repr

/-- What the outside world can do in one move (R201; the owner of the buffer: R40; reset: R190; the encoder's callers:
R160, R166). -/
inductive HostOp where
  /-- Write a value to a register. -/
  | write (r : HostReg) (v : Nat)
  /-- Read a register. -/
  | read (r : HostReg)
  /-- Read an item slot. -/
  | readItem (slot : Nat)
  /-- The owner stores a level of the digital source. -/
  | storeDigital (index : Nat) (v : Level)
  /-- The owner stores a sample of the analog source. -/
  | storeAnalog (index : Nat) (v : AnalogCode)
  /-- Hardware reset. -/
  | reset
  /-- Call the encoder on a list of frames. -/
  | encode (frames : List (List Bool))
  deriving DecidableEq, Repr

/-- Who moves in one step: the decode pass, the encoder, or the outside world (log entry 5). -/
inductive Move where
  | decoder
  | encoder
  | host (op : HostOp)
  deriving DecidableEq, Repr

/-- What the last host read returned. -/
inductive Answer where
  | none
  | register (v : Nat)
  | item (it : Item)
  deriving DecidableEq, Repr

/-- A sample space: (index, sample) pairs, indices strictly rising, no pair equal to what an unlisted index reads as. The
unit of access is one sample (R45), so a pair holds a sample where a byte-addressed machine's holds a byte. -/
abbrev Memory (α : Type) := List (Nat × α)

structure State where
  /-- SAMPLE_RATE, register 2 (R20). -/
  sampleRate : BitVec 32
  /-- BAUD_RATE, register 3 (R21). -/
  baudRate : BitVec 32
  /-- START_OFFSET, register 4 (R22), a natural in the reference semantics (R3). -/
  startOffset : Nat
  /-- START_OFFSET_VALID, register 5 (R22). -/
  startOffsetValid : Bool
  /-- SRC_SEL, register 6 (R23): `true` is the analog source. -/
  srcSel : Bool
  /-- LENGTH, register 7 (R24). -/
  length : Nat
  /-- STATUS.BUSY (R26). -/
  busy : Bool
  /-- STATUS.DONE (R26). -/
  done : Bool
  /-- The Decoded Item Store (R31, R42). ITEM_COUNT, register 8, is its length (R27). -/
  items : List Item
  /-- N (R11). -/
  n : Nat
  /-- `state` (R12). -/
  fsm : FsmState
  /-- `pend` (R13); `none` is the spec's "holds no value" (R36), which R64 reads (log entry 15). -/
  pend : Option Level
  /-- `value` (R14). -/
  value : Nat
  /-- `bit_count` (R15). -/
  bitCount : Nat
  /-- `fsi` (R16). -/
  fsi : Nat
  /-- `pc`, the scanner cursor (R17). -/
  pc : Nat
  /-- `total` (R18). -/
  total : Nat
  /-- SRC_SEL as latched at PASS.START (R23, R103). -/
  src : Bool
  /-- The digital level sequence (R40, R101). -/
  digital : Memory Level
  /-- The analog sequence, each sample by its code (R40, R102, log entry 14). -/
  analog : Memory AnalogCode
  /-- The encoder's frames not yet begun (R166); the model's own. -/
  encQueue : List (List Bool)
  /-- The data bits left of the frame the encoder is sending (R165); the model's own. -/
  encFrame : Option (List Bool)
  /-- The encoder's output so far (R160); the model's own. -/
  encOut : List Level
  /-- The moves still to come, oldest first; the model's own (log entry 5). -/
  script : List Move
  /-- What the last host read returned; the model's own (log entry 5). -/
  answer : Answer
  /-- Index of the next free value; the model's own (log entry 3). -/
  fresh : Nat
  deriving DecidableEq, Repr

/-- Why the machine stops. -/
inductive Fault where
  /-- Raised by a host read of an item slot at or above ITEM_COUNT while BUSY = 0: a slot the item space does not have
  (R40, R42, log entry 10). Safe: the block itself goes on, and the model claims nothing of it. -/
  | itemSlotAbsent (slot : Nat)
  deriving DecidableEq, Repr

/-- Why a step has no meaning. -/
inductive Refusal where
  /-- An instruction without a meaning: no arm of exec raises it. Safe. -/
  | notModelled (mnemonic : String)
  /-- Raised when the owner of the sample buffer stores a sample while BUSY = 1: the spec gives the owner no move then
  (R51, U2, log entry 11). Safe: claims hold of runs with a stable buffer. -/
  | sampleStoreDuringPass
  /-- Raised by a step whose key no row of R65 matches; no state forms such a key (R70 a). Safe. -/
  | reservedKey (r : Reject)
  deriving DecidableEq, Repr

/-- The machine right after hardware reset (R35, R190). SAMPLE_RATE and START_OFFSET: DESIGN CHOICE 0 (log entry 1). The
session registers other than `pend`: DESIGN CHOICE 0 and Idle (log entry 2). The model's own fields: empty (log entries 3,
5 and 6). -/
def State.reset : State where
  sampleRate := 0
  baudRate := BitVec.ofNat 32 Config.baudDefault
  startOffset := 0
  startOffsetValid := false
  srcSel := false
  length := 0
  busy := false
  done := false
  items := []
  n := 0
  fsm := .idle
  pend := none
  value := 0
  bitCount := 0
  fsi := 0
  pc := 0
  total := 0
  src := false
  digital := []
  analog := []
  encQueue := []
  encFrame := none
  encOut := []
  script := []
  answer := .none
  fresh := 0

end Sys2Proof.Machine
end

