-- ==== Sys2Proof/Machine/Flags.lean ====
section
/-! DEFINITION. The bit-time classifier: the three predicates of R121 to R123, recomputed from `(L, N)` in every step and
never stored (R19), and the four classes of R124. -/

namespace Sys2Proof.Machine

/-- `is_long(L) := L >= 3*N` (R121). -/
def isLong (len n : Nat) : Bool := Config.longMult * n ≤ len

/-- `is_half_bit(L) := 2*L > N` (R122). -/
def isHalfBit (len n : Nat) : Bool := Config.halfNum * n < Config.halfDen * len

/-- `is_sub_triple(L) := 2*L < 3*N` (R123). -/
def isSubTriple (len n : Nat) : Bool := Config.subtDen * len < Config.subtNum * n

/-- CLS of a run (R63). -/
def classify (v : Level) (len n : Nat) : Cls :=
  packCls v (isHalfBit len n) (isSubTriple len n) (isLong len n)

/-- The classes of R124. -/
inductive RunClass where
  | short
  | half
  | full
  | long
  deriving DecidableEq, Repr

/-- The class of a run (R124), read off the predicates. -/
def runClass (len n : Nat) : RunClass :=
  if isLong len n then .long
  else if isHalfBit len n then (if isSubTriple len n then .half else .full)
  else .short

end Sys2Proof.Machine
end

