-- ==== Sys2Proof/Machine/Ops.lean ====
section
/-! DEFINITION. The named operations over the sample space, the item store and the session registers, and the resolution
of the two pseudo-states: Stop (R144) and Error (R176), the block's counterpart of taking an exception. -/

namespace Sys2Proof.Machine

/-- What a digital sample that nothing has stored reads as: low. DESIGN CHOICE, log entry 4. -/
def unwrittenLevel : Level := false

/-- What an analog sample that nothing has stored reads as: code 0. DESIGN CHOICE, log entry 4. -/
def unwrittenSample : AnalogCode := 0

/-- The sample at an index; `d` is what an unlisted index reads as. -/
def Memory.read {α : Type} (d : α) (i : Nat) : Memory α → α
  | [] => d
  | (j, x) :: rest => if i = j then x else Memory.read d i rest

/-- Store a sample, keeping the canonical form. -/
def Memory.write {α : Type} [DecidableEq α] (d : α) (i : Nat) (v : α) : Memory α → Memory α
  | [] => if v = d then [] else [(i, v)]
  | (j, x) :: rest =>
    if i < j then (if v = d then (j, x) :: rest else (i, v) :: (j, x) :: rest)
    else if i = j then (if v = d then rest else (i, v) :: rest)
    else (j, x) :: Memory.write d i v rest

/-- The canonical form from index `lo` on: indices strictly rising, no sample equal to `d`. -/
def Memory.wfFrom {α : Type} [DecidableEq α] (d : α) (lo : Nat) : Memory α → Bool
  | [] => true
  | (j, x) :: rest => decide (lo ≤ j) && decide (x ≠ d) && Memory.wfFrom d (j + 1) rest

/-- The canonical form. -/
def Memory.wf {α : Type} [DecidableEq α] (d : α) (m : Memory α) : Bool := Memory.wfFrom d 0 m

/-- The level of an analog sample: high exactly when it is not below the threshold in the order of ANALOG_T, in which
`place` puts each code (R102). -/
def levelOfSample (place : AnalogCode → Rat) (threshold sample : AnalogCode) : Level := place threshold ≤ place sample

/-- `level_at(i)` of the source that `src` selects (R41, R101 to R103). R100 defines it below `length()` only, and N23 of
91_not_in_source.md leaves the rest open: there it gives the sample stored at `i`, or what an unlisted index reads as.
DESIGN CHOICE, log entry 23; no step forms such an access (R113). -/
def levelOf (s : State) (src : Bool) (i : Nat) : Level :=
  if src then levelOfSample Config.analogPlace Config.threshold (Memory.read unwrittenSample i s.analog)
  else Memory.read unwrittenLevel i s.digital

/-- `MemRead(i, 1)` of the running pass: the source is the one latched at its start (R103). -/
def levelAt (s : State) (i : Nat) : Level := levelOf s s.src i

/-- `Emit(item)`: append one item to the store (R42, 00_scope.md section 7.2). -/
def emit (it : Item) (s : State) : State := { s with items := s.items ++ [it] }

/-- "reset accumulator" (R132). -/
def resetAccumulator (s : State) : State := { s with value := 0, bitCount := 0 }

/-- Append a data bit, first received bit most significant (R44, R141 to R143). -/
def appendBit (bit : Level) (s : State) : State :=
  { s with value := s.value * 2 + bit.toNat, bitCount := s.bitCount + 1 }

/-- Go to a state of the frame machine. -/
def goto (f : FsmState) (s : State) : State := { s with fsm := f }

/-- Remember the level of a first half-bit (R13). -/
def holdHalf (v : Level) (s : State) : State := { s with pend := some v }

/-- Arm for the frame that begins after the run just scanned: `fsi <- after`, state StartFirstHalf (R130, R144). This is
also the return from an Error (R177). After the scan the cursor is `after` (R112; DEDUCED, log entry 17). -/
def arm (s : State) : State := { s with fsi := s.pc, fsm := .startFirstHalf }

/-- The item a Stop emits (R144). -/
def dataItem (s : State) : Item :=
  { kind := .data, value := some s.value, bitCount := some s.bitCount, startIndex := s.fsi,
    stopIndex := some (min (s.fsi + Config.stopSpanMult * s.n) (s.total - 1)) }

/-- The item an Error emits: it spans from the frame's start to `after`, which the cursor holds (R176). -/
def errorItem (s : State) : Item :=
  { kind := .frameError, value := none, bitCount := none, startIndex := s.fsi, stopIndex := some s.pc }

/-- `goto Stop(after)`, resolved in the same step (R144). -/
def stopFrame (s : State) : State := arm (emit (dataItem s) s)

/-- `raise FrameError(after)`, resolved in the same step (R176): the one shared operation that takes the block's
exception. Nothing is saved; the state goes to Idle. -/
def raiseFrameError (s : State) : State := goto .idle (emit (errorItem s) s)

/-- `end_pass` (R80, R87). -/
def endPass (s : State) : State := { s with busy := false, done := true }

/-- The moves still to come, once one has been taken (log entry 5). -/
def setScript (ms : List Move) (s : State) : State := { s with script := ms }

/-- Append two half-bit levels to the encoder's output (R161 to R163). -/
def emitPair (a b : Level) (s : State) : State := { s with encOut := s.encOut ++ [a, b] }

end Sys2Proof.Machine
end

