-- ==== Sys2Proof/Machine/Operands.lean ====
section
/-! DEFINITION. Operand assembly: the run descriptor and its scan (R61, R62, R111), the dispatch key (R64), the codes and
packed layouts (R66 to R68). -/

namespace Sys2Proof.Machine

/-- The run descriptor RUN (R61). -/
structure Run where
  level : Level
  len : Nat
  offset : Nat
  deriving DecidableEq, Repr

/-- `after = offset + L` (R62, R112). -/
def Run.after (r : Run) : Nat := r.offset + r.len

/-- How many samples from index `j` on, at most `fuel`, keep level `v`: the loop of R111. -/
def sameLevelCount (s : State) (v : Level) (j : Nat) : Nat → Nat
  | 0 => 0
  | fuel + 1 => if levelAt s j = v then sameLevelCount s v (j + 1) fuel + 1 else 0

/-- The run that begins at the cursor (R111); it ends at the first change of level or at `total`. -/
def nextRun (s : State) : Run :=
  let v := levelAt s s.pc
  { level := v, len := 1 + sameLevelCount s v (s.pc + 1) (s.total - (s.pc + 1)), offset := s.pc }

/-- The state after `next_run`: the cursor at the first sample of the next run (R111, R112). -/
def scanned (s : State) : State := { s with pc := (nextRun s).after }

/-- The state codes of R66. -/
def FsmState.code : FsmState → BitVec 3
  | .idle => 0
  | .startFirstHalf => 1
  | .startSecondHalf => 2
  | .dataFirstHalf => 3
  | .dataSecondHalf => 4

/-- `pm` of KEY: whether `pend` equals the level, 0 while `pend` holds no value (R64). -/
def pendMatches (s : State) (v : Level) : Bool := s.pend == some v

/-- KEY of a run in a state (R64). -/
def keyOf (s : State) (r : Run) : Key :=
  packKey s.fsm.code (classify r.level r.len s.n) (pendMatches s r.level)

/-- The kind codes of R67. -/
def Kind.code : Kind → Nat
  | .data => 0
  | .frameError => 1
  | .parityError => 2

/-- The kind of a code; 3 is reserved (R67). -/
def Kind.ofCode : Nat → Option Kind
  | 0 => some .data
  | 1 => some .frameError
  | 2 => some .parityError
  | _ => none

/-- The OPEN widths of R2: INDEX_WIDTH, BITCOUNT_WIDTH, VALUE_WIDTH. -/
structure Widths where
  index : Nat
  bitCount : Nat
  value : Nat
  deriving DecidableEq, Repr

/-- The defaults of R2. -/
def Widths.default : Widths := { index := 32, bitCount := 16, value := 32 }

/-- What stands in the fields that R68 leaves unspecified; arguments, so that nothing rests on them (U7, log entry 21). -/
structure Fill where
  stop : Nat
  bitCount : Nat
  value : Nat
  deriving DecidableEq, Repr

/-- ITEM, the stored form of a Decoded Item, least significant field first (R68). A number too wide for its field loses
its upper bits (D5, D6). -/
def packItem (w : Widths) (f : Fill) (it : Item) : Nat :=
  let W := 2 ^ w.index
  let B := 2 ^ w.bitCount
  let V := 2 ^ w.value
  let value := it.value.getD f.value % V
  let count := it.bitCount.getD f.bitCount % B
  let stop := it.stopIndex.getD f.stop % W
  it.kind.code + 4 * (it.stopIndex.isSome.toNat
    + 2 * (it.startIndex % W + W * (stop + W * (count + B * value))))

/-- Reading ITEM back (R68): the fields that R68 leaves unspecified come back absent, kind code 3 gives no item. -/
def unpackItem (w : Widths) (x : Nat) : Option Item :=
  let W := 2 ^ w.index
  let B := 2 ^ w.bitCount
  let V := 2 ^ w.value
  let rest := x / 8
  match Kind.ofCode (x % 4) with
  | none => none
  | some k => some
    { kind := k
      value := if k = .data then some (rest / (W * W * B) % V) else none
      bitCount := if k = .data then some (rest / (W * W) % B) else none
      startIndex := rest % W
      stopIndex := if x / 4 % 2 = 1 then some (rest / W % W) else none }

/-- RUN in packed form (R61). -/
def packRun (w : Widths) (r : Run) : Nat :=
  r.offset % 2 ^ w.index + 2 ^ w.index * (r.len % 2 ^ w.index + 2 ^ w.index * r.level.toNat)

/-- The register numbers of R28. -/
def HostReg.number : HostReg → Nat
  | .ctrl => 0
  | .status => 1
  | .sampleRate => 2
  | .baudRate => 3
  | .startOffset => 4
  | .startOffsetValid => 5
  | .srcSel => 6
  | .length => 7
  | .itemCount => 8

/-- STATUS as a word: BUSY is bit 0, DONE bit 1 (R26). -/
def statusWord (s : State) : Nat := s.busy.toNat + 2 * s.done.toNat

end Sys2Proof.Machine
end

