-- ==== Sys2Proof/Machine/Encoder.lean ====
section
/-! DEFINITION. The frame encoder: the four output symbols (R161 to R164), `encode` as a pure function (R160, R165), and
the order in which the symbols of a frame are sent (R165, R166). The encoder has no registers (R160): the fields it uses
here only say how far the evaluation of `encode` has got (log entry 6). -/

namespace Sys2Proof.Machine

/-- ENC.START (R161): `out <- out ++ [0, 1]`. -/
def execEncStart (s : State) : Host.Outcome State Fault Refusal := .next (emitPair false true s)

/-- ENC.BIT1 (R162): `out <- out ++ [0, 1]`. -/
def execEncBit1 (s : State) : Host.Outcome State Fault Refusal := .next (emitPair false true s)

/-- ENC.BIT0 (R163): `out <- out ++ [1, 0]`. -/
def execEncBit0 (s : State) : Host.Outcome State Fault Refusal := .next (emitPair true false s)

/-- ENC.IDLE (R164): `out <- out ++ [1, 1]`, ENC_IDLE_HALFBITS high half-bits. -/
def execEncIdle (s : State) : Host.Outcome State Fault Refusal :=
  .next { s with encOut := s.encOut ++ List.replicate Config.encIdleHalfbits true }

/-- `pair(b) = [NOT b, b]` (R165). -/
def pairOf (b : Bool) : List Level := [!b, b]

/-- `encode(B)` (R165). -/
def encodeBits (bits : List Bool) : List Level :=
  [false, true] ++ bits.flatMap pairOf ++ List.replicate Config.encIdleHalfbits true

/-- The concatenation of the encoded frames, nothing inserted (R166). -/
def encodeFrames (frames : List (List Bool)) : List Level := frames.flatMap encodeBits

/-- `int(B)` (00_scope.md section 7.1): first element most significant. -/
def intOf (bits : List Bool) : Nat := bits.foldl (fun a b => a * 2 + b.toNat) 0

/-- `bits_of(v, n)` (00_scope.md section 7.1, R165). -/
def bitsOf (v : Nat) : Nat → List Bool
  | 0 => []
  | n + 1 => v.testBit n :: bitsOf v n

/-- Whether the encoder has a symbol to send. -/
def encoderActive (s : State) : Bool := s.encFrame.isSome || !s.encQueue.isEmpty

/-- The next symbol and the state with its operand taken from the input: the start bit first, then one symbol per data bit
in sequence order, then the idle (R165). -/
def encoderFetch (s : State) : Option (Instr × State) :=
  match s.encFrame, s.encQueue with
  | none, [] => none
  | none, bits :: rest => some (.encStart, { s with encFrame := some bits, encQueue := rest })
  | some [], _ => some (.encIdle, { s with encFrame := none })
  | some (true :: rest), _ => some (.encBit1, { s with encFrame := some rest })
  | some (false :: rest), _ => some (.encBit0, { s with encFrame := some rest })

end Sys2Proof.Machine
end

