-- ==== Sys2Proof/Machine/HostPort.lean ====
section
/-! DEFINITION. The host interface: the start of a pass (R80 to R84, R36), register reads and writes (R20 to R28), item
reads (R42, R50), hardware reset (R190), the owner's sample stores (R40, R51), calls of the encoder (R160). -/

namespace Sys2Proof.Machine

/-- `compute_N` (R81): exact division, 0 for a zero baud rate. -/
def computeN (sr br : Nat) : Nat := if br = 0 then 0 else sr / br

/-- The start offset (R83): the one supplied if provided and below `total`, else 0. -/
def startOffsetOf (valid : Bool) (off total : Nat) : Nat := if valid && decide (off < total) then off else 0

/-- The session at pass start (R36): N and total latched, cursor at the start offset, state Idle, `pend` without value.
`value`, `bit_count` and `fsi` hold no value: each is a free value (U6, log entry 3). One step: DEDUCED, log entry 12. -/
def passInit (s : State) : State :=
  { s with
    busy := true, done := false, items := [],
    total := s.length,
    n := computeN s.sampleRate.toNat s.baudRate.toNat,
    pc := startOffsetOf s.startOffsetValid s.startOffset s.length,
    fsm := .idle, pend := none, src := s.srcSel,
    value := Config.freeNat s.fresh,
    bitCount := Config.freeNat (s.fresh + 1),
    fsi := Config.freeNat (s.fresh + 2),
    fresh := s.fresh + 3 }

/-- PASS.START (R80): after the set-up the pass ends at once if N is below MIN_N (R82) or no sample is to be scanned
(R84). -/
def passStart (s : State) : State :=
  let t := passInit s
  if t.n < Config.minN then endPass t else if t.pc < t.total then t else endPass t

/-- The value a register reads as (R25 to R28); unused upper bits read 0. -/
def readReg (s : State) : HostReg → Nat
  | .ctrl => 0
  | .status => statusWord s
  | .sampleRate => s.sampleRate.toNat
  | .baudRate => s.baudRate.toNat
  | .startOffset => s.startOffset
  | .startOffsetValid => s.startOffsetValid.toNat
  | .srcSel => s.srcSel.toNat
  | .length => s.length
  | .itemCount => s.items.length

/-- A host read. ITEM_COUNT reads as any value while BUSY = 1 (R50). -/
def hostRead (r : HostReg) (s : State) : State :=
  if r = .itemCount ∧ s.busy = true then
    { s with answer := .register (Config.freeNat s.fresh), fresh := s.fresh + 1 }
  else { s with answer := .register (readReg s r) }

/-- A host write. CTRL.START = 1 starts a pass while BUSY = 0 (R25) and is ignored while BUSY = 1 (R199, D13; DEDUCED,
log entry 16); read-only registers ignore writes (DESIGN CHOICE, log entry 8); 1-bit registers take bit 0 (R28). -/
def hostWrite (r : HostReg) (v : Nat) (s : State) : State :=
  match r with
  | .ctrl => if v.testBit 0 && !s.busy then passStart s else s
  | .status => s
  | .sampleRate => { s with sampleRate := BitVec.ofNat 32 v }
  | .baudRate => { s with baudRate := BitVec.ofNat 32 v }
  | .startOffset => { s with startOffset := v }
  | .startOffsetValid => { s with startOffsetValid := v.testBit 0 }
  | .srcSel => { s with srcSel := v.testBit 0 }
  | .length => { s with length := v }
  | .itemCount => s

/-- Hardware reset (R190, R35): registers at their reset values, the store empty, a running pass abandoned. SAMPLE_RATE and
START_OFFSET are unspecified: free values (U10, log entry 3). The session registers take their values of `State.reset` (log
entry 2). The sample buffer belongs to its owner and the encoder is not affected (R190); neither is the model's own
bookkeeping (DEDUCED, log entry 22). -/
def hardwareReset (s : State) : State :=
  { State.reset with
    sampleRate := BitVec.ofNat 32 (Config.freeNat s.fresh),
    startOffset := Config.freeNat (s.fresh + 1),
    digital := s.digital, analog := s.analog,
    encQueue := s.encQueue, encFrame := s.encFrame, encOut := s.encOut,
    script := s.script, answer := s.answer, fresh := s.fresh + 2 }

/-- A host read of an item slot: any item while BUSY = 1 (R50); else the slot's item, or a fault where the item space has
no such slot (R40; DESIGN CHOICE, log entry 10). -/
def hostReadItem (slot : Nat) (s : State) : Host.Outcome State Fault Refusal :=
  if s.busy = true then .next { s with answer := .item (Config.freeItem s.fresh), fresh := s.fresh + 1 }
  else
    match s.items[slot]? with
    | some it => .next { s with answer := .item it }
    | none => .fault (.itemSlotAbsent slot)

/-- The owner stores a level of the digital source, never during a pass (R51; DEDUCED, log entry 11). -/
def storeDigital (i : Nat) (v : Level) (s : State) : Host.Outcome State Fault Refusal :=
  if s.busy = true then .refused .sampleStoreDuringPass
  else .next { s with digital := Memory.write unwrittenLevel i v s.digital }

/-- The owner stores a sample of the analog source, never during a pass (R51; DEDUCED, log entry 11). -/
def storeAnalog (i : Nat) (v : AnalogCode) (s : State) : Host.Outcome State Fault Refusal :=
  if s.busy = true then .refused .sampleStoreDuringPass
  else .next { s with analog := Memory.write unwrittenSample i v s.analog }

/-- Call the encoder on a list of frames: a fresh evaluation, its output empty (R160, R166). -/
def encoderCall (frames : List (List Bool)) (s : State) : State :=
  { s with encQueue := frames, encFrame := none, encOut := [] }

/-- One move of the outside world (R201). -/
def hostMove (op : HostOp) (s : State) : Host.Outcome State Fault Refusal :=
  match op with
  | .write r v => .next (hostWrite r v s)
  | .read r => .next (hostRead r s)
  | .readItem slot => hostReadItem slot s
  | .storeDigital i v => storeDigital i v s
  | .storeAnalog i v => storeAnalog i v s
  | .reset => .next (hardwareReset s)
  | .encode frames => .next (encoderCall frames s)

end Sys2Proof.Machine
end

