-- ==== Sys2Proof/Machine/Cycle.lean ====
section
/-! DEFINITION. What stands around exec in a step: scanning, classifying and dispatching a run (R86), ending the pass (R85,
R87), sending an encoder symbol, and which agent moves (log entry 5). `ex` is the meaning of instructions. Then how a word
is placed where a step fetches it (log entry 7). -/

namespace Sys2Proof.Machine

/-- End the pass when the cursor has reached the end of the buffer (R87, R202; log entry 19). -/
def finishPass (s : State) : State := if s.pc < s.total then s else endPass s

/-- What follows an instruction of the decoder in its step. -/
def retire : Host.Outcome State Fault Refusal → Host.Outcome State Fault Refusal
  | .next s => .next (finishPass s)
  | .fault r => .fault r
  | .refused r => .refused r

/-- One step of the pass (R85, R86): scan a run, form its key, take the transition the key selects. A block with no pass
running does nothing (R190); one with no run left, which no run reaches, ends (DESIGN CHOICE, log entry 19). -/
def decoderStep (ex : Instr → State → Host.Outcome State Fault Refusal) (s : State) :
    Host.Outcome State Fault Refusal :=
  if s.busy = true then
    if s.pc < s.total then
      match decodeKey (keyOf s (nextRun s)) with
      | .instr i => retire (ex i (scanned s))
      | .reject r => .refused (.reservedKey r)
    else .next (endPass s)
  else .next s

/-- One step of the encoder: send the next symbol, if there is one (R165). -/
def encoderStep (ex : Instr → State → Host.Outcome State Fault Refusal) (s : State) :
    Host.Outcome State Fault Refusal :=
  match encoderFetch s with
  | some (i, t) => ex i t
  | none => .next s

/-- One step of the whole: the script says who moves; without one a running pass moves, else the encoder. -/
def cycle (ex : Instr → State → Host.Outcome State Fault Refusal) (s : State) : Host.Outcome State Fault Refusal :=
  match s.script with
  | [] => if s.busy = true then decoderStep ex s else encoderStep ex s
  | .decoder :: rest => decoderStep ex (setScript rest s)
  | .encoder :: rest => encoderStep ex (setScript rest s)
  | .host op :: rest => hostMove op (setScript rest s)

/-- Store `k` samples of level `v` from index `i` on. -/
def fillDigital (v : Level) (i : Nat) : Nat → Memory Level → Memory Level
  | 0, m => m
  | k + 1, m => fillDigital v (i + 1) k (Memory.write unwrittenLevel i v m)

/-- The state of a code (R66). -/
def FsmState.ofCode (c : BitVec 3) : FsmState :=
  if c = 0 then .idle else if c = 1 then .startFirstHalf else if c = 2 then .startSecondHalf
  else if c = 3 then .dataFirstHalf else .dataSecondHalf

/-- Place a run of `len` samples of level `v`, then one sample of the other level, where the next decoder step of a pass
with N = 4 scans, in state `f` and with `pend` as given; the decoder moves next. -/
def placeRun (f : FsmState) (v p : Bool) (len : Nat) (s : State) : State :=
  { s with
    busy := true, done := false, n := 4, fsm := f, src := false,
    pend := some (if p then v else !v),
    total := s.pc + len + 1,
    digital := Memory.write unwrittenLevel (s.pc + len) (!v) (fillDigital v s.pc len s.digital),
    script := .decoder :: s.script }

/-- A run length of each class for N = 4 (R124): SHORT, HALF, FULL, LONG. -/
def sampleLengths : List Nat := [1, 4, 8, 12]

/-- The key of a run of `len` samples for N = 4. -/
def sampleKey (f : FsmState) (v p : Bool) (len : Nat) : Key := packKey f.code (classify v len 4) p

/-- The length of a run that makes the block take the row of key `k`: one whose key is `k` itself where the classifier can
form it, else one whose row is the same (the predicate triples of R70 c are formed by no run). -/
def lengthFor (k : Key) : Nat :=
  let f := FsmState.ofCode (keyState k)
  match sampleLengths.find? (fun len => sampleKey f (keyV k) (keyP k) len == k) with
  | some len => len
  | none =>
    let row (x : Key) := (firstRow x keyTable).map Row.pattern
    (sampleLengths.find? (fun len => row (sampleKey f (keyV k) (keyP k) len) == row k)).getD 1

/-- Place the run for a key. -/
def placeKey (k : Key) (s : State) : State :=
  placeRun (FsmState.ofCode (keyState k)) (keyV k) (keyP k) (lengthFor k) s

/-- Give the encoder the input from which it sends the symbol next; the encoder moves next. -/
def placeSymbol (h : Hb2) (s : State) : State :=
  let t := { s with script := .encoder :: s.script }
  if h = 1 then { t with encFrame := none, encQueue := [] :: s.encQueue }
  else if h = 2 then { t with encFrame := some [false] }
  else { t with encFrame := some [] }

/-- Place a table word where the next step fetches it; a word no decoder takes leaves the state as it is. -/
def placeWord (nbits w : Nat) (s : State) : State :=
  match tableWord nbits w, decodeTableWord nbits w with
  | some (.key k), some _ => placeKey k s
  | some (.hb2 h), some _ => placeSymbol h s
  | _, _ => s

end Sys2Proof.Machine
end

