-- ==== Sys2Proof/Machine/DataBits.lean ====
section
/-! DEFINITION. The transitions of the data part, states DataFirstHalf and DataSecondHalf: R137 to R143. `v` is the level
of the run, bit 4 of its key. -/

namespace Sys2Proof.Machine

/-- DF1.SHORT (R137): raise FrameError. -/
def execDf1Short (s : State) : Host.Outcome State Fault Refusal := .next (raiseFrameError s)

/-- DF1.STOP (R138): goto Stop. -/
def execDf1Stop (s : State) : Host.Outcome State Fault Refusal := .next (stopFrame s)

/-- DF1.NEXT (R139): `pend <- level`, state DataSecondHalf. -/
def execDf1Next (v : Level) (s : State) : Host.Outcome State Fault Refusal :=
  .next (goto .dataSecondHalf (holdHalf v s))

/-- DS2.BIT_STOP (R141): the bit is appended before the Stop is resolved. -/
def execDs2BitStop (v : Level) (s : State) : Host.Outcome State Fault Refusal :=
  .next (stopFrame (appendBit v s))

/-- DS2.BIT_HALF (R142): append the bit, state DataFirstHalf; `pend` keeps its value. -/
def execDs2BitHalf (v : Level) (s : State) : Host.Outcome State Fault Refusal :=
  .next (goto .dataFirstHalf (appendBit v s))

/-- DS2.BIT_FULL (R143): append the bit, `pend <- level`; `x[state]` stays DataSecondHalf, so it is not written. -/
def execDs2BitFull (v : Level) (s : State) : Host.Outcome State Fault Refusal :=
  .next (holdHalf v (appendBit v s))

/-- DS2.ERR (R140): raise FrameError; the bit is not appended. -/
def execDs2Err (s : State) : Host.Outcome State Fault Refusal := .next (raiseFrameError s)

end Sys2Proof.Machine
end

