-- ==== Sys2Proof/Machine/Idle.lean ====
section
/-! DEFINITION. The transitions of state Idle: R130, R131. -/

namespace Sys2Proof.Machine

/-- IDLE.ARM (R130): `fsi <- after`, state StartFirstHalf. -/
def execIdleArm (s : State) : Host.Outcome State Fault Refusal := .next (arm s)

/-- IDLE.HOLD (R131): nothing is written. -/
def execIdleHold (s : State) : Host.Outcome State Fault Refusal := .next s

end Sys2Proof.Machine
end

