-- ==== Sys2Proof/Machine/StartBit.lean ====
section
/-! DEFINITION. The transitions of the start bit, states StartFirstHalf and StartSecondHalf: R132 to R136. -/

namespace Sys2Proof.Machine

/-- SF1.ACCEPT (R132): reset the accumulator, state StartSecondHalf. -/
def execSf1Accept (s : State) : Host.Outcome State Fault Refusal :=
  .next (goto .startSecondHalf (resetAccumulator s))

/-- SF1.REJECT (R133): a false start, discarded silently. -/
def execSf1Reject (s : State) : Host.Outcome State Fault Refusal := .next (goto .idle s)

/-- SS2.HALF (R134): the next run begins the first data bit. -/
def execSs2Half (s : State) : Host.Outcome State Fault Refusal := .next (goto .dataFirstHalf s)

/-- SS2.FULL (R135): `pend <- level`, and the pattern `0101100-` fixes the level at 1; state DataSecondHalf. -/
def execSs2Full (s : State) : Host.Outcome State Fault Refusal :=
  .next (goto .dataSecondHalf (holdHalf true s))

/-- SS2.REJECT (R136): the frame is abandoned silently. -/
def execSs2Reject (s : State) : Host.Outcome State Fault Refusal := .next (goto .idle s)

end Sys2Proof.Machine
end

