-- ==== Sys2Proof/Machine/Dispatch.lean ====
section
/-! DEFINITION. The meaning of every instruction, one arm per constructor. -/

namespace Sys2Proof.Machine

def exec (i : Instr) (s : State) : Host.Outcome State Fault Refusal :=
  match i with
  | .idleArm _ _ _ => Sys2Proof.Machine.execIdleArm s
  | .idleHold _ _ _ _ _ => Sys2Proof.Machine.execIdleHold s
  | .sf1Accept _ _ => Sys2Proof.Machine.execSf1Accept s
  | .sf1Reject _ _ _ _ _ => Sys2Proof.Machine.execSf1Reject s
  | .ss2Half _ => Sys2Proof.Machine.execSs2Half s
  | .ss2Full _ => Sys2Proof.Machine.execSs2Full s
  | .ss2Reject _ _ _ _ _ => Sys2Proof.Machine.execSs2Reject s
  | .df1Short _ _ _ _ => Sys2Proof.Machine.execDf1Short s
  | .df1Stop _ _ _ => Sys2Proof.Machine.execDf1Stop s
  | .df1Next v _ _ => Sys2Proof.Machine.execDf1Next v s
  | .ds2BitStop v _ => Sys2Proof.Machine.execDs2BitStop v s
  | .ds2BitHalf v => Sys2Proof.Machine.execDs2BitHalf v s
  | .ds2BitFull v => Sys2Proof.Machine.execDs2BitFull v s
  | .ds2Err _ _ _ _ _ => Sys2Proof.Machine.execDs2Err s
  | .encStart => Sys2Proof.Machine.execEncStart s
  | .encBit1 => Sys2Proof.Machine.execEncBit1 s
  | .encBit0 => Sys2Proof.Machine.execEncBit0 s
  | .encIdle => Sys2Proof.Machine.execEncIdle s

end Sys2Proof.Machine
end

