-- ==== Sys2Proof/Machine/Reference.lean ====
section
/-! DEFINITION. The pass as one pure function (R91, R154), written from the document's own transition table as quoted in
44_frame_decoder.md section 1, and the waveform functions of R72, R73, R167. The machine does not use this file: it is the
second view that claims compare the machine with. -/

namespace Sys2Proof.Machine

/-- The mnemonic of the transition the document's table gives: conditions tried top to bottom, the first that holds taken
(44_frame_decoder.md section 1). -/
def tableChoice (f : FsmState) (pend : Option Level) (v : Level) (len n : Nat) : String :=
  match f with
  | .idle => if v = true ∧ 3 * n ≤ len then "IDLE.ARM" else "IDLE.HOLD"
  | .startFirstHalf => if v = false ∧ n < 2 * len ∧ 2 * len < 3 * n then "SF1.ACCEPT" else "SF1.REJECT"
  | .startSecondHalf =>
    if v = true ∧ n < 2 * len ∧ len < 3 * n then (if 2 * len < 3 * n then "SS2.HALF" else "SS2.FULL")
    else "SS2.REJECT"
  | .dataFirstHalf =>
    if ¬ n < 2 * len then "DF1.SHORT" else if 3 * n ≤ len then "DF1.STOP" else "DF1.NEXT"
  | .dataSecondHalf =>
    if ¬ n < 2 * len ∨ pend = some v then "DS2.ERR"
    else if 3 * n ≤ len then "DS2.BIT_STOP" else if 2 * len < 3 * n then "DS2.BIT_HALF" else "DS2.BIT_FULL"

/-- The five session values that R154 threads through the runs. -/
structure Session where
  fsm : FsmState
  pend : Option Level
  value : Nat
  bitCount : Nat
  fsi : Nat
  deriving DecidableEq, Repr

/-- The session at the start of a pass (R91). The numbers hold no value there; 0 stands for it and no rule reads it. -/
def Session.start : Session := { fsm := .idle, pend := none, value := 0, bitCount := 0, fsi := 0 }

/-- The Stop resolution on a session (R144). -/
def Session.stop (n total after : Nat) (x : Session) : Session × List Item :=
  ({ x with fsm := .startFirstHalf, fsi := after },
   [{ kind := .data, value := some x.value, bitCount := some x.bitCount, startIndex := x.fsi,
      stopIndex := some (min (x.fsi + 4 * n) (total - 1)) }])

/-- The Error resolution on a session (R176). -/
def Session.error (after : Nat) (x : Session) : Session × List Item :=
  ({ x with fsm := .idle },
   [{ kind := .frameError, value := none, bitCount := none, startIndex := x.fsi, stopIndex := some after }])

/-- "append bit to accumulator" (44_frame_decoder.md section 1). -/
def Session.append (v : Level) (x : Session) : Session :=
  { x with value := x.value * 2 + v.toNat, bitCount := x.bitCount + 1 }

/-- One run through the document's table (R91, R154). -/
def transition (n total : Nat) (x : Session) (v : Level) (len offset : Nat) : Session × List Item :=
  let after := offset + len
  match x.fsm with
  | .idle => if v = true ∧ 3 * n ≤ len then ({ x with fsm := .startFirstHalf, fsi := after }, []) else (x, [])
  | .startFirstHalf =>
    if v = false ∧ n < 2 * len ∧ 2 * len < 3 * n then
      ({ x with fsm := .startSecondHalf, value := 0, bitCount := 0 }, [])
    else ({ x with fsm := .idle }, [])
  | .startSecondHalf =>
    if v = true ∧ n < 2 * len ∧ len < 3 * n then
      if 2 * len < 3 * n then ({ x with fsm := .dataFirstHalf }, [])
      else ({ x with fsm := .dataSecondHalf, pend := some v }, [])
    else ({ x with fsm := .idle }, [])
  | .dataFirstHalf =>
    if ¬ n < 2 * len then x.error after
    else if 3 * n ≤ len then x.stop n total after
    else ({ x with fsm := .dataSecondHalf, pend := some v }, [])
  | .dataSecondHalf =>
    if ¬ n < 2 * len ∨ x.pend = some v then x.error after
    else if 3 * n ≤ len then (x.append v).stop n total after
    else if 2 * len < 3 * n then ({ x.append v with fsm := .dataFirstHalf }, [])
    else ({ x.append v with pend := some v }, [])

/-- The runs of a level sequence, in order: each a level and a length (R110, R114). -/
def runsOf : List Level → List (Level × Nat)
  | [] => []
  | v :: rest =>
    match runsOf rest with
    | [] => [(v, 1)]
    | (u, k) :: more => if v = u then (u, k + 1) :: more else (v, 1) :: (u, k) :: more

/-- The items of the runs from index `offset` on (R91). -/
def itemsOfRuns (n total : Nat) : Nat → Session → List (Level × Nat) → List Item
  | _, _, [] => []
  | offset, x, (v, len) :: rest =>
    (transition n total x v len offset).2 ++
      itemsOfRuns n total (offset + len) (transition n total x v len offset).1 rest

/-- `decode(levels, sr, br, valid, off)` (R91). -/
def decodePass (levels : List Level) (sr br : Nat) (valid : Bool) (off : Nat) : List Item :=
  let n := computeN sr br
  if n < 3 then []
  else
    let start := startOffsetOf valid off levels.length
    itemsOfRuns n levels.length start Session.start (runsOf (levels.drop start))

/-- `decode(w, N)`: any rates with quotient N and no start offset (R91). -/
def decodeAt (w : List Level) (n : Nat) : List Item := decodePass w n 1 false 0

/-- A session kept at finite widths: `value` and `bit_count` wrap (D6), an index wraps (D5). -/
def Session.truncate (w : Widths) (x : Session) : Session :=
  { x with value := x.value % 2 ^ w.value, bitCount := x.bitCount % 2 ^ w.bitCount, fsi := x.fsi % 2 ^ w.index }

/-- An item kept at finite widths. -/
def Item.truncate (w : Widths) (it : Item) : Item :=
  { it with
    value := it.value.map (· % 2 ^ w.value), bitCount := it.bitCount.map (· % 2 ^ w.bitCount),
    startIndex := it.startIndex % 2 ^ w.index, stopIndex := it.stopIndex.map (· % 2 ^ w.index) }

/-- The items of the runs when every register is kept at its finite width after every run (D5, D6). -/
def itemsOfRunsAt (w : Widths) (n total : Nat) : Nat → Session → List (Level × Nat) → List Item
  | _, _, [] => []
  | offset, x, (v, len) :: rest =>
    let y := transition n total x v len offset
    y.2.map (Item.truncate w) ++ itemsOfRunsAt w n total ((offset + len) % 2 ^ w.index) (y.1.truncate w) rest

/-- The pass of an implementation with finite widths (R3, D5, D6; log entry 13). -/
def decodePassAt (w : Widths) (levels : List Level) (sr br : Nat) (valid : Bool) (off : Nat) : List Item :=
  let n := computeN sr br
  if n < 3 then []
  else
    let start := startOffsetOf valid off levels.length
    itemsOfRunsAt w n levels.length start Session.start (runsOf (levels.drop start))

/-- The levels a pass started in this state sees: `length()` samples of the selected source (R100, R103). -/
def sourceLevels (s : State) : List Level := (List.range s.length).map (levelOf s s.srcSel)

/-- `H<k>` (R72). -/
def high (k : Nat) : List Level := List.replicate k true

/-- `L<k>` (R72). -/
def low (k : Nat) : List Level := List.replicate k false

/-- `resample(h, N)`: each half-bit becomes N samples (R167). -/
def resample (h : List Level) (n : Nat) : List Level := h.flatMap (fun v => List.replicate n v)

/-- `START(N)` (R73). -/
def startWave (n : Nat) : List Level := low n ++ high n

/-- `BIT1(N)` and `BIT0(N)` (R73). -/
def bitWave (n : Nat) (b : Bool) : List Level := if b then low n ++ high n else high n ++ low n

/-- `TAIL(N)` (R73). -/
def tailWave (n : Nat) : List Level := high (2 * n)

/-- `FRAME(B, N)` (R73). -/
def frameWave (bits : List Bool) (n : Nat) : List Level := startWave n ++ bits.flatMap (bitWave n) ++ tailWave n

end Sys2Proof.Machine
end

