-- ==== Sys2Proof/Safety.lean ====
section
/-! DEFINITION. The terms in which claims are made: runs of steps, the invariant of the machine, what a pass leaves
untouched, the items of encoded frames. -/

namespace Sys2Proof.Machine

/-- `k` steps, stopping at the first fault or refusal. -/
def stepN : Nat → State → Host.Outcome State Fault Refusal
  | 0, s => .next s
  | k + 1, s =>
    match step s with
    | .next t => stepN k t
    | .fault r => .fault r
    | .refused r => .refused r

/-- Whether the frame machine has been armed by a long run that has not yet given an item (R152). -/
def FsmState.armedCount : FsmState → Nat
  | .idle => 0
  | .startFirstHalf => 1
  | .startSecondHalf => 1
  | .dataFirstHalf => 1
  | .dataSecondHalf => 1

/-- Where the frame stands against the cursor, and what `pend` and the accumulator hold, in each state (R13 to R16, R145 c,
R146, R151). `n / 2 + 1` is the least length of a half-bit run (R124). -/
def PhaseOk (s : State) : Prop :=
  match s.fsm with
  | .idle => True
  | .startFirstHalf => s.fsi = s.pc
  | .startSecondHalf =>
    s.fsi + (s.n / 2 + 1) ≤ s.pc ∧ s.value = 0 ∧ s.bitCount = 0 ∧ levelAt s s.pc = true
  | .dataFirstHalf => s.fsi + 2 * (s.n / 2 + 1) ≤ s.pc ∧ s.value < 2 ^ s.bitCount
  | .dataSecondHalf =>
    s.fsi + 2 * (s.n / 2 + 1) ≤ s.pc ∧ s.value < 2 ^ s.bitCount ∧ s.pend = some (!levelAt s s.pc)

/-- What every stored item satisfies (R30, R32, R33, R174, C6): a second bound is present and not below the first; a Data
item ends inside the buffer and carries a value of `bit_count` bits; a FrameError ends at most at `total`. -/
def ItemOk (total : Nat) (it : Item) : Prop :=
  ∃ stop, it.stopIndex = some stop ∧ it.startIndex ≤ stop ∧
    ((it.kind = .data ∧ stop + 1 ≤ total ∧ ∃ v c, it.value = some v ∧ it.bitCount = some c ∧ v < 2 ^ c) ∨
     (it.kind = .frameError ∧ stop ≤ total ∧ it.value = none ∧ it.bitCount = none))

/-- One item ends before another begins (R32). -/
def EndsBefore (a b : Item) : Prop := ∃ stop, a.stopIndex = some stop ∧ stop < b.startIndex

/-- The invariant of the machine. -/
structure Inv (s : State) : Prop where
  /-- The sample spaces are in canonical form. -/
  digital : Memory.wf unwrittenLevel s.digital = true
  /-- The analog one too. -/
  analog : Memory.wf unwrittenSample s.analog = true
  /-- BUSY and DONE are never both 1 (R26). -/
  status : ¬ (s.busy = true ∧ s.done = true)
  /-- A pass runs only with N at least 3 and with samples left to scan (R82, R87). -/
  running : s.busy = true → 3 ≤ s.n ∧ s.pc < s.total
  /-- The frame under way. -/
  phase : s.busy = true → PhaseOk s
  /-- The stored items. -/
  items : ∀ it ∈ s.items, ItemOk s.total it
  /-- Items follow one another in the buffer (R32). -/
  ordered : s.items.Pairwise EndsBefore
  /-- Every stored item ends before the frame under way begins, or, in Idle, not after the cursor. -/
  past : s.busy = true → ∀ it ∈ s.items, ∀ stop, it.stopIndex = some stop →
    stop ≤ s.pc ∧ (s.fsm ≠ .idle → stop < s.fsi)
  /-- At most one item for each long run scanned (R152). -/
  longRuns : s.busy = true → (s.items.length + s.fsm.armedCount) * (3 * s.n) ≤ s.pc
  /-- So at most `total / 3N` items in all (R152). -/
  count : s.items.length * (3 * s.n) ≤ s.total

/-- Two states with the same host registers, STATUS apart. -/
def SameConfig (s t : State) : Prop :=
  t.sampleRate = s.sampleRate ∧ t.baudRate = s.baudRate ∧ t.startOffset = s.startOffset ∧
  t.startOffsetValid = s.startOffsetValid ∧ t.srcSel = s.srcSel ∧ t.length = s.length

/-- Two states that give the same sample at every index of both sources. -/
def SameSamples (s t : State) : Prop :=
  (∀ i, Memory.read unwrittenLevel i t.digital = Memory.read unwrittenLevel i s.digital) ∧
  (∀ i, Memory.read unwrittenSample i t.analog = Memory.read unwrittenSample i s.analog)

/-- Two states with the same session registers (R11 to R18 and the source latch). -/
def SameSession (s t : State) : Prop :=
  t.n = s.n ∧ t.fsm = s.fsm ∧ t.pend = s.pend ∧ t.value = s.value ∧ t.bitCount = s.bitCount ∧
  t.fsi = s.fsi ∧ t.pc = s.pc ∧ t.total = s.total ∧ t.src = s.src

/-- Two states with the same encoder fields. -/
def SameEncoder (s t : State) : Prop :=
  t.encQueue = s.encQueue ∧ t.encFrame = s.encFrame ∧ t.encOut = s.encOut

/-- Two states with the same moves to come, last answer and free-value counter: the model's own bookkeeping. -/
def SameBookkeeping (s t : State) : Prop :=
  t.script = s.script ∧ t.answer = s.answer ∧ t.fresh = s.fresh

/-- An item each of whose numbers fits its field (R3, R68). -/
def ItemFits (w : Widths) (it : Item) : Prop :=
  it.startIndex < 2 ^ w.index ∧ (∀ x ∈ it.stopIndex, x < 2 ^ w.index) ∧
  (∀ x ∈ it.bitCount, x < 2 ^ w.bitCount) ∧ (∀ x ∈ it.value, x < 2 ^ w.value)

/-- The item that a frame of R168 gives: the bits, and a span from the frame's first sample over 4N samples. -/
def frameItem (n start : Nat) (bits : List Bool) : Item :=
  { kind := .data, value := some (intOf bits), bitCount := some bits.length, startIndex := start,
    stopIndex := some (start + 4 * n) }

/-- Frames with the gap of extra high samples after each (R169). -/
def framesWave (n : Nat) : List (List Bool × Nat) → List Level
  | [] => []
  | (bits, gap) :: rest => resample (encodeBits bits) n ++ high gap ++ framesWave n rest

/-- The items of R169: one per frame, each starting at the first sample of its frame. -/
def framesItems (n : Nat) : Nat → List (List Bool × Nat) → List Item
  | _, [] => []
  | start, (bits, gap) :: rest =>
    frameItem n start bits :: framesItems n (start + (2 * bits.length + 4) * n + gap) rest

/-- A frame of R168 and R169: at least one bit, and enough high samples after it to make the high run that follows at least
3N long. -/
def FrameOk (n : Nat) (f : List Bool × Nat) : Prop :=
  f.1 ≠ [] ∧ (f.1.getLast? = some false → n ≤ f.2)

end Sys2Proof.Machine
end

