-- ==== Sys2Proof/Certificates/Slice0/Obligations.lean ====
section
/-! DEFINITION. The statements for the provers. Rules that 00 to 70 of spec/ mark [derived: ...] are the spec's own
inferences: a statement about one says so and names the rule in its comment only. -/

open Sys2Proof Sys2Proof.Machine

/-! ## Encodings (R65 to R69) -/

/-- Decode and encode agree on every well-formed instruction, each ignored bit at either value (R65, R69). -/
def Obligations.DecodeUndoesEncode : Prop :=
  ∀ i : Instr, i.wf = true → decodeWord i.isFirst (encode i) = .instr i

/-- Every word that decodes is the word of the instruction it decodes to, and that instruction is well formed. -/
def Obligations.EncodeUndoesDecode : Prop :=
  (∀ (k : Key) (i : Instr), decodeKey k = .instr i → i.wf = true ∧ encode i = .key k) ∧
  (∀ (first : Bool) (h : Hb2) (i : Instr), decodeHb2 first h = .instr i →
    i.wf = true ∧ encode i = .hb2 h ∧ i.isFirst = first)

/-- R65: the table, and the choice of the matching row of lowest order; every key with state field 0 to 4 has one. -/
def Obligations.KeyTakesLowestMatchingRow : Prop :=
  keyTable.map (fun r => (r.mnemonic, r.pattern, r.mask)) =
    [("IDLE.ARM", 0x12, 0xF2), ("IDLE.HOLD", 0x00, 0xE0), ("SF1.ACCEPT", 0x2C, 0xFC), ("SF1.REJECT", 0x20, 0xE0),
     ("SS2.HALF", 0x5C, 0xFE), ("SS2.FULL", 0x58, 0xFE), ("SS2.REJECT", 0x40, 0xE0), ("DF1.SHORT", 0x60, 0xE8),
     ("DF1.STOP", 0x6A, 0xEA), ("DF1.NEXT", 0x68, 0xEA), ("DS2.BIT_STOP", 0x8A, 0xEB),
     ("DS2.BIT_HALF", 0x8C, 0xEF), ("DS2.BIT_FULL", 0x88, 0xEF), ("DS2.ERR", 0x80, 0xE0)] ∧
  (∀ (k : Key) (i : Instr), decodeKey k = .instr i ↔
    ∃ before row after, keyTable = before ++ row :: after ∧ k &&& row.mask = row.pattern ∧
      (∀ r ∈ before, k &&& r.mask ≠ r.pattern) ∧ row.build k = i) ∧
  (∀ r ∈ keyTable, ∀ k : Key, k &&& r.mask = r.pattern → (r.build k).mnemonic = r.mnemonic) ∧
  (∀ k : Key, (keyState k).toNat ≤ 4 → ∃ i, decodeKey k = .instr i)

/-- R66: the state codes; a key whose state field is a pseudo-state or reserved is rejected under its own name. -/
def Obligations.StateCodesAndPseudoStates : Prop :=
  FsmState.idle.code = 0 ∧ FsmState.startFirstHalf.code = 1 ∧ FsmState.startSecondHalf.code = 2 ∧
  FsmState.dataFirstHalf.code = 3 ∧ FsmState.dataSecondHalf.code = 4 ∧
  (∀ k : Key, keyState k = 5 → decodeKey k = .reject .stopPseudoState) ∧
  (∀ k : Key, keyState k = 6 → decodeKey k = .reject .errorPseudoState) ∧
  (∀ k : Key, keyState k = 7 → decodeKey k = .reject .reservedState)

/-- Words written out from the spec decode to the instruction they stand for: KEYs of 95_test_vectors.md section 2.5 and the
HB2 symbols of R69. -/
def Obligations.WordsOfTheSpecDecode : Prop :=
  decodeKey 0b00011010 = .instr (.idleArm true false false) ∧
  decodeKey 0b00101100 = .instr (.sf1Accept false false) ∧
  decodeKey 0b01011000 = .instr (.ss2Full false) ∧
  decodeKey 0b01111101 = .instr (.df1Next true true true) ∧
  decodeKey 0b10011100 = .instr (.ds2BitHalf true) ∧
  decodeKey 0b10011011 = .instr (.ds2Err true true false true true) ∧
  decodeHb2 true 0b01 = .instr .encStart ∧ decodeHb2 false 0b10 = .instr .encBit0

/-- The key of any run in any state selects the transition of the document's own table (44_frame_decoder.md section 1), and
the instruction keeps every bit of the key. -/
def Obligations.KeySelectsTransitionOfTheDocument : Prop :=
  ∀ (s : State) (r : Run), ∃ i, decodeKey (keyOf s r) = .instr i ∧
    i.mnemonic = tableChoice s.fsm s.pend r.level r.len s.n ∧ encode i = .key (keyOf s r)

/-- R64: the fields of KEY, bit by bit; `pm` is 0 while `pend` holds no value. R63: the predicates in their order. -/
def Obligations.KeyLayout : Prop :=
  ∀ (s : State) (r : Run), let k := keyOf s r
    k.extractLsb' 5 3 = s.fsm.code ∧ k.getLsbD 4 = r.level ∧
    (k.getLsbD 3 = true ↔ 2 * r.len > s.n) ∧ (k.getLsbD 2 = true ↔ 2 * r.len < 3 * s.n) ∧
    (k.getLsbD 1 = true ↔ r.len ≥ 3 * s.n) ∧ (k.getLsbD 0 = true ↔ s.pend = some r.level) ∧
    (s.pend = none → k.getLsbD 0 = false)

/-- R68 with the kind codes of R67: where each field of ITEM lies, reading an item back whose numbers fit, and `stop_valid`
in the two items the block emits. -/
def Obligations.ItemLayout : Prop :=
  (Kind.data.code = 0 ∧ Kind.frameError.code = 1 ∧ Kind.parityError.code = 2 ∧ Kind.ofCode 3 = none) ∧
  (∀ s : State, (dataItem s).kind = .data ∧ (dataItem s).stopIndex.isSome = true ∧
    (errorItem s).kind = .frameError ∧ (errorItem s).stopIndex.isSome = true) ∧
  (∀ (w : Widths) (f : Fill) (it : Item), ItemFits w it →
    let x := packItem w f it
    x % 4 = it.kind.code ∧
    x / 2 ^ 2 % 2 = it.stopIndex.isSome.toNat ∧
    x / 2 ^ 3 % 2 ^ w.index = it.startIndex ∧
    (∀ e, it.stopIndex = some e → x / 2 ^ (3 + w.index) % 2 ^ w.index = e) ∧
    (∀ c, it.bitCount = some c → x / 2 ^ (3 + 2 * w.index) % 2 ^ w.bitCount = c) ∧
    (∀ v, it.value = some v → x / 2 ^ (3 + 2 * w.index + w.bitCount) % 2 ^ w.value = v)) ∧
  (∀ (w : Widths) (f : Fill) (it : Item), ItemFits w it →
    (it.kind = .data ∧ it.value.isSome = true ∧ it.bitCount.isSome = true ∨
      it.kind ≠ .data ∧ it.value = none ∧ it.bitCount = none) →
    unpackItem w (packItem w f it) = some it)

/-! ## Classifier and scanner (R111, R120 to R124, R113, R114) -/

/-- R121 to R123: the three predicates. -/
def Obligations.ClassifierPredicates : Prop :=
  ∀ len n : Nat, (isLong len n = true ↔ len ≥ 3 * n) ∧ (isHalfBit len n = true ↔ 2 * len > n) ∧
    (isSubTriple len n = true ↔ 2 * len < 3 * n)

/-- The four classes by their conditions and by integer bounds, and the predicate bits each determines. R124, an inference
the spec marks as its own. -/
def Obligations.FourClassesOfRuns : Prop :=
  ∀ len n : Nat, 1 ≤ n → 1 ≤ len →
    (runClass len n = .short ↔ 2 * len ≤ n) ∧
    (runClass len n = .half ↔ n < 2 * len ∧ 2 * len < 3 * n) ∧
    (runClass len n = .full ↔ 3 * n ≤ 2 * len ∧ len < 3 * n) ∧
    (runClass len n = .long ↔ 3 * n ≤ len) ∧
    (runClass len n = .short ↔ len ≤ n / 2) ∧
    (runClass len n = .half ↔ n / 2 + 1 ≤ len ∧ len + 1 ≤ (3 * n + 1) / 2) ∧
    (runClass len n = .full ↔ (3 * n + 1) / 2 ≤ len ∧ len + 1 ≤ 3 * n) ∧
    (runClass len n = .short → isHalfBit len n = false ∧ isSubTriple len n = true ∧ isLong len n = false) ∧
    (runClass len n = .half → isHalfBit len n = true ∧ isSubTriple len n = true ∧ isLong len n = false) ∧
    (runClass len n = .full → isHalfBit len n = true ∧ isSubTriple len n = false ∧ isLong len n = false) ∧
    (runClass len n = .long → isHalfBit len n = true ∧ isSubTriple len n = false ∧ isLong len n = true)

/-- R111: the run at the cursor is the maximal one of its level up to `total`, and the scan moves the cursor, and nothing
else, to the first sample after it. -/
def Obligations.ScannerYieldsMaximalRun : Prop :=
  ∀ s : State, s.pc < s.total →
    (nextRun s).offset = s.pc ∧ (nextRun s).level = levelAt s s.pc ∧ 1 ≤ (nextRun s).len ∧
    (nextRun s).offset + (nextRun s).len ≤ s.total ∧
    (∀ i, s.pc ≤ i → i < s.pc + (nextRun s).len → levelAt s i = (nextRun s).level) ∧
    (s.pc + (nextRun s).len < s.total → levelAt s (s.pc + (nextRun s).len) ≠ (nextRun s).level) ∧
    scanned s = { s with pc := (nextRun s).offset + (nextRun s).len }

/-- The run at the cursor depends on no sample left of the cursor and none at or beyond `total`. R113 and R115, inferences
the spec marks as its own. -/
def Obligations.ScannerReadsOnlyTheRestOfTheBuffer : Prop :=
  ∀ s t : State, s.pc < s.total → t.pc = s.pc → t.total = s.total →
    (∀ i, s.pc ≤ i → i < s.total → levelAt t i = levelAt s i) → nextRun t = nextRun s

/-- The runs of a buffer partition it: laid end to end they are the buffer, each has a sample, neighbours differ in level.
R114, an inference the spec marks as its own. -/
def Obligations.RunsPartitionTheBuffer : Prop :=
  ∀ levels : List Level,
    (runsOf levels).flatMap (fun r => List.replicate r.2 r.1) = levels ∧
    ((runsOf levels).map Prod.snd).sum = levels.length ∧
    (∀ r ∈ runsOf levels, 1 ≤ r.2) ∧
    List.IsChain (fun a b => b.1 ≠ a.1) (runsOf levels)

/-! ## The step (R85 to R87) -/

/-- A step runs the decoded instruction: the run at the cursor is scanned, its key decoded, the instruction executed on the
state after the scan, and the pass ended when the cursor has reached `total` (R85 to R87); a step of the encoder executes
the symbol it fetches. Who moves, and one encoder symbol a step, are the model's choice: log entries 5 and 6. -/
def Obligations.StepRunsTheDecodedInstruction : Prop :=
  (∀ (s u : State) (i : Instr),
    (s.script = [] ∧ u = s ∨ ∃ rest, s.script = .decoder :: rest ∧ u = { s with script := rest }) →
    s.busy = true → s.pc < s.total → decodeKey (keyOf u (nextRun u)) = .instr i →
    step s = match exec i { u with pc := (nextRun u).after } with
      | .next t => .next (if t.pc < t.total then t else { t with busy := false, done := true })
      | .fault r => .fault r
      | .refused r => .refused r) ∧
  (∀ (s u t : State) (i : Instr),
    (s.script = [] ∧ s.busy = false ∧ u = s ∨ ∃ rest, s.script = .encoder :: rest ∧ u = { s with script := rest }) →
    encoderFetch u = some (i, t) → step s = exec i t)

/-- Every step of a running pass answers a next state with the cursor further on, at most one item more, N and `total` as
they were, and the pass ended exactly when the cursor is at `total` (R85, R86, R172). That the decoder moves when the script
is empty or names it is the model's choice: log entry 5. -/
def Obligations.EveryPassStepAdvances : Prop :=
  ∀ s : State, (s.script = [] ∨ ∃ rest, s.script = .decoder :: rest) → s.busy = true → s.pc < s.total →
    ∃ t, step s = .next t ∧ t.script = s.script.tail ∧ t.pc = (nextRun s).after ∧ s.pc < t.pc ∧ t.pc ≤ t.total ∧
      t.total = s.total ∧ t.n = s.n ∧ (t.items = s.items ∨ ∃ it, t.items = s.items ++ [it]) ∧
      (t.busy = true ↔ t.pc < s.total) ∧ (¬ t.pc < s.total → t.done = true)

/-! ## The transitions (R130 to R144, R176) -/

/-- R130, R131: when each is taken, and what it does. -/
def Obligations.IdleTransitions : Prop :=
  (∀ (s : State) (r : Run), s.fsm = .idle → r.level = true → 3 * s.n ≤ r.len →
    ∃ h t p, decodeKey (keyOf s r) = .instr (.idleArm h t p)) ∧
  (∀ (s : State) (r : Run), s.fsm = .idle → (r.level = false ∨ r.len < 3 * s.n) →
    ∃ v h t g p, decodeKey (keyOf s r) = .instr (.idleHold v h t g p)) ∧
  (∀ (h t p : Bool) (s : State), exec (.idleArm h t p) s = .next { s with fsi := s.pc, fsm := .startFirstHalf }) ∧
  (∀ (v h t g p : Bool) (s : State), exec (.idleHold v h t g p) s = .next s)

/-- R132, R133: when each is taken, and what it does. -/
def Obligations.StartFirstHalfTransitions : Prop :=
  (∀ (s : State) (r : Run), s.fsm = .startFirstHalf → r.level = false → s.n < 2 * r.len → 2 * r.len < 3 * s.n →
    ∃ g p, decodeKey (keyOf s r) = .instr (.sf1Accept g p)) ∧
  (∀ (s : State) (r : Run), s.fsm = .startFirstHalf →
    (r.level = true ∨ 2 * r.len ≤ s.n ∨ 3 * s.n ≤ 2 * r.len) →
    ∃ v h t g p, decodeKey (keyOf s r) = .instr (.sf1Reject v h t g p)) ∧
  (∀ (g p : Bool) (s : State),
    exec (.sf1Accept g p) s = .next { s with value := 0, bitCount := 0, fsm := .startSecondHalf }) ∧
  (∀ (v h t g p : Bool) (s : State), exec (.sf1Reject v h t g p) s = .next { s with fsm := .idle })

/-- R134 to R136: when each is taken, and what it does. -/
def Obligations.StartSecondHalfTransitions : Prop :=
  (∀ (s : State) (r : Run), s.fsm = .startSecondHalf → r.level = true → s.n < 2 * r.len → r.len < 3 * s.n →
    2 * r.len < 3 * s.n → ∃ p, decodeKey (keyOf s r) = .instr (.ss2Half p)) ∧
  (∀ (s : State) (r : Run), s.fsm = .startSecondHalf → r.level = true → s.n < 2 * r.len → r.len < 3 * s.n →
    3 * s.n ≤ 2 * r.len → ∃ p, decodeKey (keyOf s r) = .instr (.ss2Full p)) ∧
  (∀ (s : State) (r : Run), s.fsm = .startSecondHalf →
    (r.level = false ∨ 2 * r.len ≤ s.n ∨ 3 * s.n ≤ r.len) →
    ∃ v h t g p, decodeKey (keyOf s r) = .instr (.ss2Reject v h t g p)) ∧
  (∀ (p : Bool) (s : State), exec (.ss2Half p) s = .next { s with fsm := .dataFirstHalf }) ∧
  (∀ (p : Bool) (s : State), exec (.ss2Full p) s = .next { s with pend := some true, fsm := .dataSecondHalf }) ∧
  (∀ (v h t g p : Bool) (s : State), exec (.ss2Reject v h t g p) s = .next { s with fsm := .idle })

/-- R137 to R139 with the resolutions of R144 and R176: when each is taken, and what it does. The cursor of the state that
an instruction runs in is `after`. -/
def Obligations.DataFirstHalfTransitions : Prop :=
  (∀ (s : State) (r : Run), s.fsm = .dataFirstHalf → 2 * r.len ≤ s.n →
    ∃ v t g p, decodeKey (keyOf s r) = .instr (.df1Short v t g p)) ∧
  (∀ (s : State) (r : Run), s.fsm = .dataFirstHalf → s.n < 2 * r.len → 3 * s.n ≤ r.len →
    ∃ v t p, decodeKey (keyOf s r) = .instr (.df1Stop v t p)) ∧
  (∀ (s : State) (r : Run), s.fsm = .dataFirstHalf → s.n < 2 * r.len → r.len < 3 * s.n →
    ∃ t p, decodeKey (keyOf s r) = .instr (.df1Next r.level t p)) ∧
  (∀ (v t g p : Bool) (s : State), exec (.df1Short v t g p) s = .next { s with
    items := s.items ++ [{ kind := .frameError, value := none, bitCount := none, startIndex := s.fsi,
                           stopIndex := some s.pc }],
    fsm := .idle }) ∧
  (∀ (v t p : Bool) (s : State), exec (.df1Stop v t p) s = .next { s with
    items := s.items ++ [{ kind := .data, value := some s.value, bitCount := some s.bitCount, startIndex := s.fsi,
                           stopIndex := some (min (s.fsi + 4 * s.n) (s.total - 1)) }],
    fsi := s.pc, fsm := .startFirstHalf }) ∧
  (∀ (v t p : Bool) (s : State), exec (.df1Next v t p) s = .next { s with pend := some v, fsm := .dataSecondHalf })

/-- R140 to R143 with the resolutions of R144 and R176: when each is taken, and what it does. -/
def Obligations.DataSecondHalfTransitions : Prop :=
  (∀ (s : State) (r : Run), s.fsm = .dataSecondHalf → (2 * r.len ≤ s.n ∨ s.pend = some r.level) →
    ∃ v h t g p, decodeKey (keyOf s r) = .instr (.ds2Err v h t g p)) ∧
  (∀ (s : State) (r : Run), s.fsm = .dataSecondHalf → s.n < 2 * r.len → s.pend ≠ some r.level → 3 * s.n ≤ r.len →
    ∃ t, decodeKey (keyOf s r) = .instr (.ds2BitStop r.level t)) ∧
  (∀ (s : State) (r : Run), s.fsm = .dataSecondHalf → s.n < 2 * r.len → s.pend ≠ some r.level → r.len < 3 * s.n →
    2 * r.len < 3 * s.n → decodeKey (keyOf s r) = .instr (.ds2BitHalf r.level)) ∧
  (∀ (s : State) (r : Run), s.fsm = .dataSecondHalf → s.n < 2 * r.len → s.pend ≠ some r.level → r.len < 3 * s.n →
    3 * s.n ≤ 2 * r.len → decodeKey (keyOf s r) = .instr (.ds2BitFull r.level)) ∧
  (∀ (v h t g p : Bool) (s : State), exec (.ds2Err v h t g p) s = .next { s with
    items := s.items ++ [{ kind := .frameError, value := none, bitCount := none, startIndex := s.fsi,
                           stopIndex := some s.pc }],
    fsm := .idle }) ∧
  (∀ (v t : Bool) (s : State), exec (.ds2BitStop v t) s = .next { s with
    value := s.value * 2 + v.toNat, bitCount := s.bitCount + 1,
    items := s.items ++ [{ kind := .data, value := some (s.value * 2 + v.toNat), bitCount := some (s.bitCount + 1),
                           startIndex := s.fsi, stopIndex := some (min (s.fsi + 4 * s.n) (s.total - 1)) }],
    fsi := s.pc, fsm := .startFirstHalf }) ∧
  (∀ (v : Bool) (s : State), exec (.ds2BitHalf v) s = .next { s with
    value := s.value * 2 + v.toNat, bitCount := s.bitCount + 1, fsm := .dataFirstHalf }) ∧
  (∀ (v : Bool) (s : State), exec (.ds2BitFull v) s = .next { s with
    value := s.value * 2 + v.toNat, bitCount := s.bitCount + 1, pend := some v })

/-- R161 to R164: each symbol's encoding, and its levels, appended to the encoder's output; nothing else changes. -/
def Obligations.EncoderSymbols : Prop :=
  encode .encStart = .hb2 0b01 ∧ encode .encBit1 = .hb2 0b01 ∧ encode .encBit0 = .hb2 0b10 ∧
  encode .encIdle = .hb2 0b11 ∧ ∀ s : State,
    exec .encStart s = .next { s with encOut := s.encOut ++ [false, true] } ∧
    exec .encBit1 s = .next { s with encOut := s.encOut ++ [false, true] } ∧
    exec .encBit0 s = .next { s with encOut := s.encOut ++ [true, false] } ∧
    exec .encIdle s = .next { s with encOut := s.encOut ++ [true, true] }

/-! ## Frames -/

/-- What a transition that emits nothing leaves unchanged: the store, every sample, the host registers, STATUS, N, `total`,
the cursor, the source latch, the encoder; and of `fsi`, `pend`, the accumulator and `state` whatever its rule does not
name. -/
def Obligations.FrameOfSilentTransitions : Prop :=
  ∀ (i : Instr) (s t : State),
    i.mnemonic ∈ ["IDLE.ARM", "IDLE.HOLD", "SF1.ACCEPT", "SF1.REJECT", "SS2.HALF", "SS2.FULL", "SS2.REJECT", "DF1.NEXT",
      "DS2.BIT_HALF", "DS2.BIT_FULL"] →
    exec i s = .next t →
    t.items = s.items ∧ SameSamples s t ∧ SameConfig s t ∧ t.busy = s.busy ∧ t.done = s.done ∧
    t.n = s.n ∧ t.total = s.total ∧ t.pc = s.pc ∧ t.src = s.src ∧ SameEncoder s t ∧ SameBookkeeping s t ∧
    (i.mnemonic ≠ "IDLE.ARM" → t.fsi = s.fsi) ∧
    (i.mnemonic ∉ ["SS2.FULL", "DF1.NEXT", "DS2.BIT_FULL"] → t.pend = s.pend) ∧
    (i.mnemonic ∉ ["SF1.ACCEPT", "DS2.BIT_HALF", "DS2.BIT_FULL"] → t.value = s.value ∧ t.bitCount = s.bitCount) ∧
    (i.mnemonic ∈ ["IDLE.HOLD", "DS2.BIT_FULL"] → t.fsm = s.fsm)

/-- What a transition that emits an item leaves unchanged: every earlier slot of the store, every sample, the host registers,
STATUS, N, `total`, the cursor, the source latch, the encoder, `pend`; the accumulator but for DS2.BIT_STOP; `fsi` after an
Error. -/
def Obligations.FrameOfEmittingTransitions : Prop :=
  ∀ (i : Instr) (s t : State),
    i.mnemonic ∈ ["DF1.SHORT", "DF1.STOP", "DS2.BIT_STOP", "DS2.ERR"] → exec i s = .next t →
    t.items.length = s.items.length + 1 ∧ (∀ k, k < s.items.length → t.items[k]? = s.items[k]?) ∧
    SameSamples s t ∧ SameConfig s t ∧ t.busy = s.busy ∧ t.done = s.done ∧
    t.n = s.n ∧ t.total = s.total ∧ t.pc = s.pc ∧ t.src = s.src ∧ t.pend = s.pend ∧
    SameEncoder s t ∧ SameBookkeeping s t ∧
    (i.mnemonic ≠ "DS2.BIT_STOP" → t.value = s.value ∧ t.bitCount = s.bitCount) ∧
    (i.mnemonic ∈ ["DF1.SHORT", "DS2.ERR"] → t.fsi = s.fsi)

/-- What an encoder symbol leaves unchanged: everything but the encoder's output, which it only extends. -/
def Obligations.FrameOfEncoderSymbols : Prop :=
  ∀ (i : Instr) (s t : State),
    i.mnemonic ∈ ["ENC.START", "ENC.BIT1", "ENC.BIT0", "ENC.IDLE"] → exec i s = .next t →
    t.items = s.items ∧ SameSamples s t ∧ SameConfig s t ∧ t.busy = s.busy ∧ t.done = s.done ∧ SameSession s t ∧
    t.encQueue = s.encQueue ∧ t.encFrame = s.encFrame ∧ SameBookkeeping s t ∧
    ∃ a b, t.encOut = s.encOut ++ [a, b]

/-! ## Reset and the start of a pass (R35, R36, R80 to R84, R190) -/

/-- R35, the values it gives: STATUS, ITEM_COUNT, BAUD_RATE, START_OFFSET_VALID, SRC_SEL, LENGTH; and nothing runs. -/
def Obligations.ResetValues : Prop :=
  State.reset.busy = false ∧ State.reset.done = false ∧ State.reset.items = [] ∧
  State.reset.baudRate.toNat = 2400 ∧ State.reset.startOffsetValid = false ∧ State.reset.srcSel = false ∧
  State.reset.length = 0 ∧ State.reset.pend = none ∧ step State.reset = .next State.reset

/-- R190: a hardware reset, at any time, gives the host registers the values of R35, empties the store, abandons a running
pass with DONE = 0, leaves the encoder alone; and the block then does nothing until it is started. That it leaves the
samples and the moves to come is the model's inference: log entry 22. -/
def Obligations.HardwareResetAbandonsThePass : Prop :=
  ∀ (s : State) (rest : List Move), s.script = .host .reset :: rest →
    ∃ t, step s = .next t ∧ t.busy = false ∧ t.done = false ∧ t.items = [] ∧ t.baudRate.toNat = 2400 ∧
      t.startOffsetValid = false ∧ t.srcSel = false ∧ t.length = 0 ∧ t.pend = none ∧ SameSamples s t ∧
      SameEncoder s t ∧ t.script = rest ∧
      (rest = [] → encoderActive t = false → step t = .next t)

/-- R81: the quotient of the rates, exact and rounded down, 0 for a zero baud rate; and PASS.START latches it. -/
def Obligations.ComputeNIsTheFloor : Prop :=
  (∀ sr : Nat, computeN sr 0 = 0) ∧
  (∀ sr br : Nat, 0 < br → computeN sr br * br ≤ sr ∧ sr < (computeN sr br + 1) * br) ∧
  (∀ s : State, (passStart s).n = computeN s.sampleRate.toNat s.baudRate.toNat)

/-- The start offset: the one supplied if it is valid and below LENGTH, else 0 (R83); and PASS.START sets the cursor to
it. -/
def Obligations.StartOffsetInRangeOrZero : Prop :=
  ∀ s : State,
    (s.startOffsetValid = true → s.startOffset < s.length → (passStart s).pc = s.startOffset) ∧
    (s.startOffsetValid = false ∨ s.length ≤ s.startOffset → (passStart s).pc = 0) ∧
    (passStart s).total = s.length

/-- A start sets N and `total`, clears the store, and leaves the configuration and the samples (R36); it latches the selected
source (R23, R103). With N at least 3 the cursor goes to the start offset and the frame machine to Idle (R36, R83); with N at
least 3 and a sample to scan the pass runs, else it has ended (R80, R82, R84). That a start is one step, the pass ended in it
if there is nothing to scan, and that an aborted start latches the source too, is the model's choice: log entry 12. -/
def Obligations.PassStartSetsTheSession : Prop :=
  ∀ (s : State) (v : Nat) (rest : List Move), s.script = .host (.write .ctrl v) :: rest → v.testBit 0 = true →
    s.busy = false →
    ∃ t, step s = .next t ∧
      t.n = (if s.baudRate.toNat = 0 then 0 else s.sampleRate.toNat / s.baudRate.toNat) ∧ t.total = s.length ∧
      (3 ≤ t.n → t.fsm = .idle ∧
        t.pc = (if s.startOffsetValid = true ∧ s.startOffset < s.length then s.startOffset else 0)) ∧
      t.pend = none ∧ t.src = s.srcSel ∧ t.items = [] ∧
      (3 ≤ t.n ∧ 0 < s.length → t.busy = true ∧ t.done = false) ∧
      (t.n < 3 ∨ s.length = 0 → t.busy = false ∧ t.done = true) ∧
      SameConfig s t ∧ SameSamples s t ∧ SameEncoder s t ∧ t.script = rest

/-- R82: with N below 3 a start ends at once, with no items, whatever the buffer holds. -/
def Obligations.PassAbortsBelowMinN : Prop :=
  ∀ (s : State) (v : Nat) (rest : List Move), s.script = .host (.write .ctrl v) :: rest → v.testBit 0 = true →
    s.busy = false → computeN s.sampleRate.toNat s.baudRate.toNat < 3 →
    ∃ t, step s = .next t ∧ t.items = [] ∧ t.busy = false ∧ t.done = true ∧ SameConfig s t ∧ SameSamples s t ∧
      t.script = rest

/-- R84, R105: an empty source gives no items and is no error. -/
def Obligations.EmptySourceGivesNoItems : Prop :=
  ∀ (s : State) (v : Nat) (rest : List Move), s.script = .host (.write .ctrl v) :: rest → v.testBit 0 = true →
    s.busy = false → s.length = 0 →
    ∃ t, step s = .next t ∧ t.items = [] ∧ t.busy = false ∧ t.done = true ∧ t.script = rest

/-! ## Host interface (R20 to R28, R40 to R51, R101 to R103, R199) -/

/-- What each register reads as, by its number of R28; ITEM_COUNT while no pass runs. -/
def Obligations.RegisterReads : Prop :=
  ∀ (s : State) (r : HostReg) (rest : List Move), s.script = .host (.read r) :: rest →
    (r = .itemCount → s.busy = false) →
    step s = .next { s with
      script := rest,
      answer := .register (match r.number with
        | 0 => 0
        | 1 => (if s.busy then 1 else 0) + (if s.done then 2 else 0)
        | 2 => s.sampleRate.toNat
        | 3 => s.baudRate.toNat
        | 4 => s.startOffset
        | 5 => if s.startOffsetValid then 1 else 0
        | 6 => if s.srcSel then 1 else 0
        | 7 => s.length
        | _ => s.items.length) }

/-- What a write does to each register: START_OFFSET and LENGTH take the value, 1-bit registers bit 0, CTRL starts a pass
when bit 0 is set and no pass runs and does nothing when bit 0 is clear (R20 to R25, R28). The model's choices: a value too
wide for SAMPLE_RATE or BAUD_RATE loses its upper bits, and STATUS and ITEM_COUNT, read-only by R28, ignore a write (log
entry 8); a start while a pass runs is ignored (log entry 16). -/
def Obligations.RegisterWrites : Prop :=
  ∀ (s : State) (v : Nat) (rest : List Move),
    (s.script = .host (.write .sampleRate v) :: rest →
      step s = .next { s with script := rest, sampleRate := BitVec.ofNat 32 (v % 2 ^ 32) }) ∧
    (s.script = .host (.write .baudRate v) :: rest →
      step s = .next { s with script := rest, baudRate := BitVec.ofNat 32 (v % 2 ^ 32) }) ∧
    (s.script = .host (.write .startOffset v) :: rest → step s = .next { s with script := rest, startOffset := v }) ∧
    (s.script = .host (.write .startOffsetValid v) :: rest →
      step s = .next { s with script := rest, startOffsetValid := decide (v % 2 = 1) }) ∧
    (s.script = .host (.write .srcSel v) :: rest →
      step s = .next { s with script := rest, srcSel := decide (v % 2 = 1) }) ∧
    (s.script = .host (.write .length v) :: rest → step s = .next { s with script := rest, length := v }) ∧
    (s.script = .host (.write .status v) :: rest → step s = .next { s with script := rest }) ∧
    (s.script = .host (.write .itemCount v) :: rest → step s = .next { s with script := rest }) ∧
    (s.script = .host (.write .ctrl v) :: rest →
      (v.testBit 0 = false → step s = .next { s with script := rest }) ∧
      (v.testBit 0 = true → s.busy = true → step s = .next { s with script := rest }) ∧
      (v.testBit 0 = true → s.busy = false → step s = .next (passStart { s with script := rest })))

/-- R199: no register write while a pass runs, CTRL.START among them, touches the pass: session, store, STATUS and every
level it can read stay; and a written configuration register holds the new value for the next start. The model's choices:
STATUS and ITEM_COUNT ignore a write and a wide value loses its upper bits (log entry 8), and CTRL.START is ignored (log
entry 16). -/
def Obligations.WritesDuringAPassDoNotTouchIt : Prop :=
  ∀ (s : State) (r : HostReg) (v : Nat) (rest : List Move), s.script = .host (.write r v) :: rest → s.busy = true →
    ∃ t, step s = .next t ∧ SameSession s t ∧ t.items = s.items ∧ t.busy = true ∧ t.done = s.done ∧
      SameSamples s t ∧ (∀ i, levelAt t i = levelAt s i) ∧ t.script = rest ∧
      (r = .ctrl → SameConfig s t) ∧ (r = .length → t.length = v) ∧ (r = .startOffset → t.startOffset = v) ∧
      (r = .sampleRate → t.sampleRate.toNat = v % 2 ^ 32) ∧ (r = .baudRate → t.baudRate.toNat = v % 2 ^ 32) ∧
      (r = .startOffsetValid → t.startOffsetValid = decide (v % 2 = 1)) ∧ (r = .srcSel → t.srcSel = decide (v % 2 = 1))

/-- A host read of a register or of a present item slot, at any time, changes nothing but the answer the host gets (R46). -/
def Obligations.HostReadsHaveNoSideEffect : Prop :=
  ∀ (s : State) (op : HostOp) (rest : List Move),
    ((∃ r, op = .read r) ∨ ∃ slot, op = .readItem slot ∧ (s.busy = true ∨ slot < s.items.length)) →
    s.script = .host op :: rest →
    ∃ t, step s = .next t ∧ t.script = rest ∧ SameConfig s t ∧ SameSamples s t ∧ SameSession s t ∧ SameEncoder s t ∧
      t.items = s.items ∧ t.busy = s.busy ∧ t.done = s.done

/-- With no pass running a slot below ITEM_COUNT reads as its item (R42); that a read of a slot the item space does not have
faults is the model's choice: log entry 10. -/
def Obligations.ItemSlotsReadBack : Prop :=
  ∀ (s : State) (slot : Nat) (rest : List Move), s.script = .host (.readItem slot) :: rest → s.busy = false →
    (∀ it, s.items[slot]? = some it → step s = .next { s with script := rest, answer := .item it }) ∧
    (s.items.length ≤ slot → step s = .fault (.itemSlotAbsent slot))

/-- A sample the owner stores reads back, and every other sample of both sources is as it was (R40, R41). -/
def Obligations.StoredSamplesReadBack : Prop :=
  ∀ (s : State) (i : Nat) (rest : List Move), s.busy = false →
    Memory.wf unwrittenLevel s.digital = true → Memory.wf unwrittenSample s.analog = true →
    (∀ v, s.script = .host (.storeDigital i v) :: rest → ∃ t, step s = .next t ∧
      Memory.read unwrittenLevel i t.digital = v ∧
      (∀ k, k ≠ i → Memory.read unwrittenLevel k t.digital = Memory.read unwrittenLevel k s.digital) ∧
      t.analog = s.analog ∧ SameConfig s t ∧ SameSession s t ∧ t.items = s.items ∧ t.script = rest) ∧
    (∀ v, s.script = .host (.storeAnalog i v) :: rest → ∃ t, step s = .next t ∧
      Memory.read unwrittenSample i t.analog = v ∧
      (∀ k, k ≠ i → Memory.read unwrittenSample k t.analog = Memory.read unwrittenSample k s.analog) ∧
      t.digital = s.digital ∧ SameConfig s t ∧ SameSession s t ∧ t.items = s.items ∧ t.script = rest)

/-- A sample store while a pass runs is refused by name: the owner has no move then (R51, and U2 of
93_implementation_defined.md, whose treatment is `refuse`). -/
def Obligations.SampleStoreDuringAPassIsRefused : Prop :=
  ∀ (s : State) (i : Nat) (rest : List Move), s.busy = true →
    (∀ v, s.script = .host (.storeDigital i v) :: rest → step s = .refused .sampleStoreDuringPass) ∧
    (∀ v, s.script = .host (.storeAnalog i v) :: rest → step s = .refused .sampleStoreDuringPass)

/-- The level of a sample for either source; at the threshold it is high (R101, R102). The order of analog samples is any
(log entry 14). That an index at or beyond `length()` has a level in the same way is the model's choice: log entry 23. -/
def Obligations.LevelOfASample : Prop :=
  (∀ (s : State) (i : Nat), levelOf s false i = Memory.read unwrittenLevel i s.digital) ∧
  (∀ (s : State) (i : Nat), levelOf s true i = true ↔
    Config.analogPlace (Memory.read unwrittenSample i s.analog) ≥ Config.analogPlace Config.threshold) ∧
  (∀ (s : State) (i : Nat), Memory.read unwrittenSample i s.analog = Config.threshold → levelOf s true i = true)

/-! ## Invariants and whole-machine rules -/

/-- The invariant holds right after reset. -/
def Obligations.ResetMeetsTheInvariant : Prop := Inv State.reset

/-- Every step keeps the invariant, whoever moves: canonical sample spaces, BUSY and DONE exclusive, N at least 3 and the
cursor inside the buffer while a pass runs, the frame under way, the stored items in order and inside the buffer, one long
run per item. -/
def Obligations.EveryStepKeepsTheInvariant : Prop :=
  ∀ s t : State, Inv s → step s = .next t → Inv t

/-- With runs from the scanner `pend` never equals the level in DataSecondHalf. R146, an inference the spec marks as its
own. -/
def Obligations.PendNeverMatchesTheScannedLevel : Prop :=
  ∀ s : State, Inv s → s.busy = true → s.fsm = .dataSecondHalf → s.pend = some (!(nextRun s).level) ∧
    keyP (keyOf s (nextRun s)) = false

/-- So the only run that raises a FrameError is a SHORT one. R146 and the reachable causes of R171. -/
def Obligations.FrameErrorsComeFromShortRuns : Prop :=
  ∀ (s : State) (i : Instr), Inv s → s.busy = true → decodeKey (keyOf s (nextRun s)) = .instr i →
    i.mnemonic ∈ ["DF1.SHORT", "DS2.ERR"] → 2 * (nextRun s).len ≤ s.n

/-- A frame that reaches Stop spans more than 4N samples, so the clamp of R144 selects nothing: the Data item spans exactly
4N samples and ends before the next frame's start. R151, an inference the spec marks as its own. -/
def Obligations.DataItemsSpanFourN : Prop :=
  ∀ (s : State) (i : Instr), Inv s → (s.script = [] ∨ ∃ rest, s.script = .decoder :: rest) → s.busy = true →
    decodeKey (keyOf s (nextRun s)) = .instr i → i.mnemonic ∈ ["DF1.STOP", "DS2.BIT_STOP"] →
    ∃ t v c, step s = .next t ∧ t.fsi = (nextRun s).after ∧ s.fsi + 4 * s.n < t.fsi ∧
      t.items = s.items ++ [{ kind := .data, value := some v, bitCount := some c, startIndex := s.fsi,
                              stopIndex := some (s.fsi + 4 * s.n) }]

/-- The store is append-only: a step leaves it, or is a step of a running pass and appends one item, or empties it, and only
a start while no pass runs or a hardware reset empties it (R31, R42, R43, R190). -/
def Obligations.StoreIsAppendOnly : Prop :=
  ∀ s t : State, step s = .next t →
    t.items = s.items ∨
    (s.busy = true ∧ (s.script = [] ∨ ∃ rest, s.script = .decoder :: rest) ∧ ∃ it, t.items = s.items ++ [it]) ∨
    (t.items = [] ∧ ((∃ rest, s.script = .host .reset :: rest) ∨
      ∃ v rest, s.script = .host (.write .ctrl v) :: rest ∧ v.testBit 0 = true ∧ s.busy = false))

/-- The session registers change only by a step of a running pass, a start or a reset: no other host move and no step of
the encoder, scripted or not, touches them, the store or STATUS (R10, R43); and a decoder move with no pass running changes
nothing (R190; log entries 5 and 19). -/
def Obligations.OnlyThePassWritesTheSession : Prop :=
  (∀ (s t : State) (op : HostOp) (rest : List Move), s.script = .host op :: rest → op ≠ .reset →
    (∀ v, op ≠ .write .ctrl v) → step s = .next t →
    SameSession s t ∧ t.items = s.items ∧ t.busy = s.busy ∧ t.done = s.done) ∧
  (∀ s t : State, (s.script = [] ∧ s.busy = false ∨ ∃ rest, s.script = .encoder :: rest) → step s = .next t →
    SameSession s t ∧ t.items = s.items ∧ t.busy = s.busy ∧ t.done = s.done ∧ SameConfig s t ∧ SameSamples s t) ∧
  (∀ (s : State) (rest : List Move), s.script = .decoder :: rest → s.busy = false →
    step s = .next { s with script := rest })

/-- Nobody writes the sample space during a pass, and at any time only the owner's stores do (R40, R51). That a hardware
reset, in either clause, leaves the samples is the model's inference: log entry 22. -/
def Obligations.OnlyTheOwnerWritesSamples : Prop :=
  (∀ s t : State, s.busy = true → step s = .next t → t.digital = s.digital ∧ t.analog = s.analog) ∧
  (∀ s t : State, step s = .next t →
    (∀ i v rest, s.script ≠ .host (.storeDigital i v) :: rest) →
    (∀ i v rest, s.script ≠ .host (.storeAnalog i v) :: rest) → t.digital = s.digital ∧ t.analog = s.analog)

/-! ## The pass as a whole (R88 to R91) -/

/-- Every pass ends, after at most as many steps as there are samples left, and one for each move of the encoder that the
script puts among them; the host makes no move meanwhile. R88, an inference the spec marks as its own; the script is the
model's choice, log entry 5. -/
def Obligations.EveryPassEnds : Prop :=
  (∀ s : State, (∀ m ∈ s.script, m = .decoder ∨ m = .encoder) → s.busy = true → s.pc < s.total →
    ∃ k t, k ≤ s.total - s.pc + s.script.count .encoder ∧ stepN k s = .next t ∧ t.busy = false ∧ t.done = true ∧
      t.pc = t.total ∧ t.total = s.total) ∧
  (∀ (s : State) (v : Nat) (rest : List Move), s.script = .host (.write .ctrl v) :: rest →
    (∀ m ∈ rest, m = .decoder ∨ m = .encoder) → v.testBit 0 = true → s.busy = false →
    ∃ k t, k ≤ 1 + (s.length - startOffsetOf s.startOffsetValid s.startOffset s.length) + rest.count .encoder ∧
      stepN k s = .next t ∧ t.busy = false ∧ t.done = true)

/-- A start runs to DONE and leaves exactly the items of the pure function `decode` on the source's levels. R91, an inference
the spec marks as its own; the function follows the document's table (44_frame_decoder.md section 1). -/
def Obligations.PassComputesDecode : Prop :=
  ∀ (s : State) (v : Nat), s.script = [.host (.write .ctrl v)] → v.testBit 0 = true → s.busy = false →
    ∃ k t, stepN k s = .next t ∧ 1 ≤ k ∧ t.busy = false ∧ t.done = true ∧
      t.items = decodePass (sourceLevels s) s.sampleRate.toNat s.baudRate.toNat s.startOffsetValid s.startOffset

/-- R90: two starts with the same configuration and the same levels end with the same items, whatever items, session registers
or STATUS an earlier pass left. -/
def Obligations.ReRunForgetsEarlierPasses : Prop :=
  ∀ (s u t w : State) (k j : Nat), s.script = [.host (.write .ctrl 1)] → u.script = [.host (.write .ctrl 1)] →
    s.busy = false → u.busy = false → SameConfig s u → sourceLevels u = sourceLevels s → 1 ≤ k → 1 ≤ j →
    stepN k s = .next t → t.done = true → stepN j u = .next w → w.done = true → w.items = t.items

/-- The items of a pass follow one another: each has both bounds in order, each ends before the next begins, a Data item ends
inside the buffer and its value has at most `bit_count` bits, a FrameError ends at most at `total`, and there is no
ParityError. R32 and R33, R174, C6: inferences the spec marks as its own but for the first sentence of R32. -/
def Obligations.DecodedItemsAreInOrder : Prop :=
  ∀ (levels : List Level) (sr br : Nat) (valid : Bool) (off : Nat),
    (decodePass levels sr br valid off).Pairwise EndsBefore ∧
    ∀ it ∈ decodePass levels sr br valid off, ItemOk levels.length it

/-- A pass yields at most one item per 3N scanned samples. R152, an inference the spec marks as its own. -/
def Obligations.DecodedItemCountIsBounded : Prop :=
  ∀ (levels : List Level) (sr br : Nat) (valid : Bool) (off : Nat),
    (decodePass levels sr br valid off).length ≤
        (levels.length - startOffsetOf valid off levels.length) / (3 * computeN sr br) ∧
    (decodePass levels sr br valid off).length ≤ levels.length / 9

/-- A buffer of one constant level, high or low, yields no items at any rates and any start offset (R131; vector V2). -/
def Obligations.ConstantBufferYieldsNothing : Prop :=
  ∀ (v : Level) (k sr br : Nat) (valid : Bool) (off : Nat), decodePass (List.replicate k v) sr br valid off = []

/-- R3: within its premise an implementation that keeps every register at its finite width gives the same items. -/
def Obligations.FiniteWidthsAgreeWithinThePremise : Prop :=
  ∀ (w : Widths) (levels : List Level) (sr br : Nat) (valid : Bool) (off : Nat),
    levels.length + 4 * computeN sr br < 2 ^ w.index →
    (∀ it ∈ decodePass levels sr br valid off, ∀ c, it.bitCount = some c → c ≤ min w.value (2 ^ w.bitCount - 1)) →
    decodePassAt w levels sr br valid off = decodePass levels sr br valid off

/-! ## The encoder and the laws (R160 to R169) -/

/-- R165: the shape of an encoded frame, its length, and the conversion of a number to its bits, first bit most
significant. -/
def Obligations.EncodedFrameFormat : Prop :=
  (∀ bits : List Bool, encodeBits bits = [false, true] ++ bits.flatMap (fun b => [!b, b]) ++ [true, true] ∧
    (encodeBits bits).length = 2 * bits.length + 4) ∧
  (∀ v n : Nat, (bitsOf v n).length = n ∧ intOf (bitsOf v n) = v % 2 ^ n) ∧
  (∀ bits : List Bool, bitsOf (intOf bits) bits.length = bits)

/-- A call of the encoder on any list of frames runs, symbol by symbol, to the concatenation of their encodings (R165, R166;
one symbol a step is the model's choice: log entry 6). -/
def Obligations.EncoderRunComputesEncode : Prop :=
  ∀ (s : State) (frames : List (List Bool)), s.script = [.host (.encode frames)] → s.busy = false →
    ∃ k t, stepN k s = .next t ∧ t.encOut = encodeFrames frames ∧ encoderActive t = false ∧
      SameSession s t ∧ t.items = s.items ∧ SameConfig s t ∧ SameSamples s t

/-- The waveform of the macro FRAME is the resampled encoding (R73, R165, R167). -/
def Obligations.FrameMacroIsResampledEncoding : Prop :=
  ∀ (bits : List Bool) (n : Nat), frameWave bits n = resample (encodeBits bits) n

/-- The round-trip law with its two premises. R168, an inference the spec marks as its own. -/
def Obligations.RoundTripLaw : Prop :=
  ∀ (n lead pad sr br : Nat) (bits : List Bool), 3 ≤ n → computeN sr br = n → 3 * n ≤ lead → FrameOk n (bits, pad) →
    decodePass (high lead ++ resample (encodeBits bits) n ++ high pad) sr br false 0 = [frameItem n lead bits]

/-- The back-to-back law with its premises. R169, an inference the spec marks as its own. -/
def Obligations.BackToBackLaw : Prop :=
  ∀ (n lead sr br : Nat) (frames : List (List Bool × Nat)), 3 ≤ n → computeN sr br = n → 3 * n ≤ lead →
    (∀ f ∈ frames, FrameOk n f) →
    decodePass (high lead ++ framesWave n frames) sr br false 0 = framesItems n lead frames
end

