-- ==== Sys2Proof/Laws/Memory.lean ====
section
/-! SUPPORT. The sample space as a memory: read after write, and that every operation keeps the canonical form. -/

namespace Sys2Proof.Machine

variable {α : Type} [DecidableEq α]

omit [DecidableEq α] in
@[simp] theorem Memory.read_nil (d : α) (i : Nat) : Memory.read d i [] = d := rfl

@[simp] theorem Memory.wf_nil (d : α) : Memory.wf d [] = true := rfl

@[simp] theorem Memory.wfFrom_cons (d : α) (lo j : Nat) (x : α) (m : Memory α) :
    Memory.wfFrom d lo ((j, x) :: m) = true ↔ lo ≤ j ∧ x ≠ d ∧ Memory.wfFrom d (j + 1) m = true := by
  simp [Memory.wfFrom, and_assoc]

theorem Memory.wfFrom_mono {d : α} {lo lo' : Nat} {m : Memory α} (h : Memory.wfFrom d lo m = true) (hle : lo' ≤ lo) :
    Memory.wfFrom d lo' m = true := by
  cases m with
  | nil => rfl
  | cons p m =>
    obtain ⟨j, x⟩ := p
    rw [Memory.wfFrom_cons] at h ⊢
    exact ⟨by omega, h.2⟩

/-- Below the first listed index every sample reads as the default. -/
theorem Memory.read_below {d : α} {lo i : Nat} {m : Memory α} (h : Memory.wfFrom d lo m = true) (hi : i < lo) :
    Memory.read d i m = d := by
  induction m generalizing lo with
  | nil => rfl
  | cons p m ih =>
    obtain ⟨j, x⟩ := p
    rw [Memory.wfFrom_cons] at h
    have : i ≠ j := by omega
    simp only [Memory.read, this, if_false]
    exact ih h.2.2 (by omega)

theorem Memory.write_wfFrom {d : α} {lo i : Nat} (v : α) {m : Memory α} (h : Memory.wfFrom d lo m = true)
    (hi : lo ≤ i) : Memory.wfFrom d lo (Memory.write d i v m) = true := by
  induction m generalizing lo with
  | nil => by_cases hv : v = d <;> simp [Memory.write, hv, hi, Memory.wfFrom]
  | cons p m ih =>
    obtain ⟨j, x⟩ := p
    rw [Memory.wfFrom_cons] at h
    obtain ⟨hj, hx, hm⟩ := h
    simp only [Memory.write]
    split
    · by_cases hv : v = d
      · simp [hv, hj, hx, hm]
      · simp only [hv, if_false, Memory.wfFrom_cons]
        exact ⟨hi, hv, by omega, hx, hm⟩
    · split
      · by_cases hv : v = d
        · simpa [hv] using Memory.wfFrom_mono hm (by omega)
        · subst i
          simp [hv, hj, hm]
      · rw [Memory.wfFrom_cons]
        exact ⟨hj, hx, ih hm (by omega)⟩

/-- A store keeps the canonical form. -/
theorem Memory.write_wf {d : α} (i : Nat) (v : α) {m : Memory α} (h : Memory.wf d m = true) :
    Memory.wf d (Memory.write d i v m) = true :=
  Memory.write_wfFrom v h (Nat.zero_le i)

theorem Memory.read_write_from {d : α} {lo : Nat} (i k : Nat) (v : α) {m : Memory α}
    (h : Memory.wfFrom d lo m = true) :
    Memory.read d k (Memory.write d i v m) = if k = i then v else Memory.read d k m := by
  induction m generalizing lo with
  | nil => by_cases hv : v = d <;> by_cases hk : k = i <;> simp [Memory.write, Memory.read, hv, hk]
  | cons p m ih =>
    obtain ⟨j, x⟩ := p
    rw [Memory.wfFrom_cons] at h
    obtain ⟨hj, hx, hm⟩ := h
    have below : ∀ q, q < j + 1 → Memory.read d q m = d := fun q hq => Memory.read_below hm hq
    simp only [Memory.write]
    split
    next hij =>
      by_cases hv : v = d
      · by_cases hk : k = i
        · subst hk
          simp [hv, Memory.read, Nat.ne_of_lt hij, below k (by omega)]
        · simp [hv, hk]
      · by_cases hk : k = i <;> simp [hv, Memory.read, hk]
    next hij =>
      split
      next he =>
        subst he
        by_cases hv : v = d
        · by_cases hk : k = i
          · simp [hv, hk, below i (by omega)]
          · simp [hv, hk, Memory.read]
        · by_cases hk : k = i <;> simp [hv, hk, Memory.read]
      next he =>
        by_cases hk : k = j
        · subst hk
          simp [Memory.read, Ne.symm he]
        · simp [Memory.read, hk, ih hm]

/-- Reading after a store in a canonical sample space: the stored sample at its index, every other sample as before. -/
theorem Memory.read_write {d : α} (i k : Nat) (v : α) {m : Memory α} (h : Memory.wf d m = true) :
    Memory.read d k (Memory.write d i v m) = if k = i then v else Memory.read d k m :=
  Memory.read_write_from i k v h

/-- Placing a run keeps the canonical form. -/
theorem fillDigital_wf (v : Level) (i k : Nat) {m : Memory Level} (h : Memory.wf unwrittenLevel m = true) :
    Memory.wf unwrittenLevel (fillDigital v i k m) = true := by
  induction k generalizing i m with
  | zero => exact h
  | succ k ih => exact ih (i + 1) (Memory.write_wf i v h)

theorem reset_memory_wf :
    Memory.wf unwrittenLevel State.reset.digital = true ∧ Memory.wf unwrittenSample State.reset.analog = true :=
  ⟨rfl, rfl⟩

end Sys2Proof.Machine
end

