-- ==== Sys2Proof/Laws/State.lean ====
section
/-! SUPPORT. What each named operation does to each field of State, one lemma per field and operation, and that none
changes the level of a sample; so that no later proof unfolds a record update. -/

namespace Sys2Proof.Machine

@[simp] theorem emit_sampleRate (it : Item) (s : State) : (emit it s).sampleRate = s.sampleRate := rfl
@[simp] theorem emit_baudRate (it : Item) (s : State) : (emit it s).baudRate = s.baudRate := rfl
@[simp] theorem emit_startOffset (it : Item) (s : State) : (emit it s).startOffset = s.startOffset := rfl
@[simp] theorem emit_startOffsetValid (it : Item) (s : State) : (emit it s).startOffsetValid = s.startOffsetValid := rfl
@[simp] theorem emit_srcSel (it : Item) (s : State) : (emit it s).srcSel = s.srcSel := rfl
@[simp] theorem emit_length (it : Item) (s : State) : (emit it s).length = s.length := rfl
@[simp] theorem emit_busy (it : Item) (s : State) : (emit it s).busy = s.busy := rfl
@[simp] theorem emit_done (it : Item) (s : State) : (emit it s).done = s.done := rfl
@[simp] theorem emit_items (it : Item) (s : State) : (emit it s).items = s.items ++ [it] := rfl
@[simp] theorem emit_n (it : Item) (s : State) : (emit it s).n = s.n := rfl
@[simp] theorem emit_fsm (it : Item) (s : State) : (emit it s).fsm = s.fsm := rfl
@[simp] theorem emit_pend (it : Item) (s : State) : (emit it s).pend = s.pend := rfl
@[simp] theorem emit_value (it : Item) (s : State) : (emit it s).value = s.value := rfl
@[simp] theorem emit_bitCount (it : Item) (s : State) : (emit it s).bitCount = s.bitCount := rfl
@[simp] theorem emit_fsi (it : Item) (s : State) : (emit it s).fsi = s.fsi := rfl
@[simp] theorem emit_pc (it : Item) (s : State) : (emit it s).pc = s.pc := rfl
@[simp] theorem emit_total (it : Item) (s : State) : (emit it s).total = s.total := rfl
@[simp] theorem emit_src (it : Item) (s : State) : (emit it s).src = s.src := rfl
@[simp] theorem emit_digital (it : Item) (s : State) : (emit it s).digital = s.digital := rfl
@[simp] theorem emit_analog (it : Item) (s : State) : (emit it s).analog = s.analog := rfl
@[simp] theorem emit_encQueue (it : Item) (s : State) : (emit it s).encQueue = s.encQueue := rfl
@[simp] theorem emit_encFrame (it : Item) (s : State) : (emit it s).encFrame = s.encFrame := rfl
@[simp] theorem emit_encOut (it : Item) (s : State) : (emit it s).encOut = s.encOut := rfl
@[simp] theorem emit_script (it : Item) (s : State) : (emit it s).script = s.script := rfl
@[simp] theorem emit_answer (it : Item) (s : State) : (emit it s).answer = s.answer := rfl
@[simp] theorem emit_fresh (it : Item) (s : State) : (emit it s).fresh = s.fresh := rfl
@[simp] theorem emit_levelAt (it : Item) (s : State) (i : Nat) : levelAt (emit it s) i = levelAt s i := rfl

@[simp] theorem resetAccumulator_sampleRate (s : State) : (resetAccumulator s).sampleRate = s.sampleRate := rfl
@[simp] theorem resetAccumulator_baudRate (s : State) : (resetAccumulator s).baudRate = s.baudRate := rfl
@[simp] theorem resetAccumulator_startOffset (s : State) : (resetAccumulator s).startOffset = s.startOffset := rfl
@[simp] theorem resetAccumulator_startOffsetValid (s : State) : (resetAccumulator s).startOffsetValid = s.startOffsetValid := rfl
@[simp] theorem resetAccumulator_srcSel (s : State) : (resetAccumulator s).srcSel = s.srcSel := rfl
@[simp] theorem resetAccumulator_length (s : State) : (resetAccumulator s).length = s.length := rfl
@[simp] theorem resetAccumulator_busy (s : State) : (resetAccumulator s).busy = s.busy := rfl
@[simp] theorem resetAccumulator_done (s : State) : (resetAccumulator s).done = s.done := rfl
@[simp] theorem resetAccumulator_items (s : State) : (resetAccumulator s).items = s.items := rfl
@[simp] theorem resetAccumulator_n (s : State) : (resetAccumulator s).n = s.n := rfl
@[simp] theorem resetAccumulator_fsm (s : State) : (resetAccumulator s).fsm = s.fsm := rfl
@[simp] theorem resetAccumulator_pend (s : State) : (resetAccumulator s).pend = s.pend := rfl
@[simp] theorem resetAccumulator_value (s : State) : (resetAccumulator s).value = 0 := rfl
@[simp] theorem resetAccumulator_bitCount (s : State) : (resetAccumulator s).bitCount = 0 := rfl
@[simp] theorem resetAccumulator_fsi (s : State) : (resetAccumulator s).fsi = s.fsi := rfl
@[simp] theorem resetAccumulator_pc (s : State) : (resetAccumulator s).pc = s.pc := rfl
@[simp] theorem resetAccumulator_total (s : State) : (resetAccumulator s).total = s.total := rfl
@[simp] theorem resetAccumulator_src (s : State) : (resetAccumulator s).src = s.src := rfl
@[simp] theorem resetAccumulator_digital (s : State) : (resetAccumulator s).digital = s.digital := rfl
@[simp] theorem resetAccumulator_analog (s : State) : (resetAccumulator s).analog = s.analog := rfl
@[simp] theorem resetAccumulator_encQueue (s : State) : (resetAccumulator s).encQueue = s.encQueue := rfl
@[simp] theorem resetAccumulator_encFrame (s : State) : (resetAccumulator s).encFrame = s.encFrame := rfl
@[simp] theorem resetAccumulator_encOut (s : State) : (resetAccumulator s).encOut = s.encOut := rfl
@[simp] theorem resetAccumulator_script (s : State) : (resetAccumulator s).script = s.script := rfl
@[simp] theorem resetAccumulator_answer (s : State) : (resetAccumulator s).answer = s.answer := rfl
@[simp] theorem resetAccumulator_fresh (s : State) : (resetAccumulator s).fresh = s.fresh := rfl
@[simp] theorem resetAccumulator_levelAt (s : State) (i : Nat) : levelAt (resetAccumulator s) i = levelAt s i := rfl

@[simp] theorem appendBit_sampleRate (b : Level) (s : State) : (appendBit b s).sampleRate = s.sampleRate := rfl
@[simp] theorem appendBit_baudRate (b : Level) (s : State) : (appendBit b s).baudRate = s.baudRate := rfl
@[simp] theorem appendBit_startOffset (b : Level) (s : State) : (appendBit b s).startOffset = s.startOffset := rfl
@[simp] theorem appendBit_startOffsetValid (b : Level) (s : State) : (appendBit b s).startOffsetValid = s.startOffsetValid := rfl
@[simp] theorem appendBit_srcSel (b : Level) (s : State) : (appendBit b s).srcSel = s.srcSel := rfl
@[simp] theorem appendBit_length (b : Level) (s : State) : (appendBit b s).length = s.length := rfl
@[simp] theorem appendBit_busy (b : Level) (s : State) : (appendBit b s).busy = s.busy := rfl
@[simp] theorem appendBit_done (b : Level) (s : State) : (appendBit b s).done = s.done := rfl
@[simp] theorem appendBit_items (b : Level) (s : State) : (appendBit b s).items = s.items := rfl
@[simp] theorem appendBit_n (b : Level) (s : State) : (appendBit b s).n = s.n := rfl
@[simp] theorem appendBit_fsm (b : Level) (s : State) : (appendBit b s).fsm = s.fsm := rfl
@[simp] theorem appendBit_pend (b : Level) (s : State) : (appendBit b s).pend = s.pend := rfl
@[simp] theorem appendBit_value (b : Level) (s : State) : (appendBit b s).value = s.value * 2 + b.toNat := rfl
@[simp] theorem appendBit_bitCount (b : Level) (s : State) : (appendBit b s).bitCount = s.bitCount + 1 := rfl
@[simp] theorem appendBit_fsi (b : Level) (s : State) : (appendBit b s).fsi = s.fsi := rfl
@[simp] theorem appendBit_pc (b : Level) (s : State) : (appendBit b s).pc = s.pc := rfl
@[simp] theorem appendBit_total (b : Level) (s : State) : (appendBit b s).total = s.total := rfl
@[simp] theorem appendBit_src (b : Level) (s : State) : (appendBit b s).src = s.src := rfl
@[simp] theorem appendBit_digital (b : Level) (s : State) : (appendBit b s).digital = s.digital := rfl
@[simp] theorem appendBit_analog (b : Level) (s : State) : (appendBit b s).analog = s.analog := rfl
@[simp] theorem appendBit_encQueue (b : Level) (s : State) : (appendBit b s).encQueue = s.encQueue := rfl
@[simp] theorem appendBit_encFrame (b : Level) (s : State) : (appendBit b s).encFrame = s.encFrame := rfl
@[simp] theorem appendBit_encOut (b : Level) (s : State) : (appendBit b s).encOut = s.encOut := rfl
@[simp] theorem appendBit_script (b : Level) (s : State) : (appendBit b s).script = s.script := rfl
@[simp] theorem appendBit_answer (b : Level) (s : State) : (appendBit b s).answer = s.answer := rfl
@[simp] theorem appendBit_fresh (b : Level) (s : State) : (appendBit b s).fresh = s.fresh := rfl
@[simp] theorem appendBit_levelAt (b : Level) (s : State) (i : Nat) : levelAt (appendBit b s) i = levelAt s i := rfl

@[simp] theorem goto_sampleRate (f : FsmState) (s : State) : (goto f s).sampleRate = s.sampleRate := rfl
@[simp] theorem goto_baudRate (f : FsmState) (s : State) : (goto f s).baudRate = s.baudRate := rfl
@[simp] theorem goto_startOffset (f : FsmState) (s : State) : (goto f s).startOffset = s.startOffset := rfl
@[simp] theorem goto_startOffsetValid (f : FsmState) (s : State) : (goto f s).startOffsetValid = s.startOffsetValid := rfl
@[simp] theorem goto_srcSel (f : FsmState) (s : State) : (goto f s).srcSel = s.srcSel := rfl
@[simp] theorem goto_length (f : FsmState) (s : State) : (goto f s).length = s.length := rfl
@[simp] theorem goto_busy (f : FsmState) (s : State) : (goto f s).busy = s.busy := rfl
@[simp] theorem goto_done (f : FsmState) (s : State) : (goto f s).done = s.done := rfl
@[simp] theorem goto_items (f : FsmState) (s : State) : (goto f s).items = s.items := rfl
@[simp] theorem goto_n (f : FsmState) (s : State) : (goto f s).n = s.n := rfl
@[simp] theorem goto_fsm (f : FsmState) (s : State) : (goto f s).fsm = f := rfl
@[simp] theorem goto_pend (f : FsmState) (s : State) : (goto f s).pend = s.pend := rfl
@[simp] theorem goto_value (f : FsmState) (s : State) : (goto f s).value = s.value := rfl
@[simp] theorem goto_bitCount (f : FsmState) (s : State) : (goto f s).bitCount = s.bitCount := rfl
@[simp] theorem goto_fsi (f : FsmState) (s : State) : (goto f s).fsi = s.fsi := rfl
@[simp] theorem goto_pc (f : FsmState) (s : State) : (goto f s).pc = s.pc := rfl
@[simp] theorem goto_total (f : FsmState) (s : State) : (goto f s).total = s.total := rfl
@[simp] theorem goto_src (f : FsmState) (s : State) : (goto f s).src = s.src := rfl
@[simp] theorem goto_digital (f : FsmState) (s : State) : (goto f s).digital = s.digital := rfl
@[simp] theorem goto_analog (f : FsmState) (s : State) : (goto f s).analog = s.analog := rfl
@[simp] theorem goto_encQueue (f : FsmState) (s : State) : (goto f s).encQueue = s.encQueue := rfl
@[simp] theorem goto_encFrame (f : FsmState) (s : State) : (goto f s).encFrame = s.encFrame := rfl
@[simp] theorem goto_encOut (f : FsmState) (s : State) : (goto f s).encOut = s.encOut := rfl
@[simp] theorem goto_script (f : FsmState) (s : State) : (goto f s).script = s.script := rfl
@[simp] theorem goto_answer (f : FsmState) (s : State) : (goto f s).answer = s.answer := rfl
@[simp] theorem goto_fresh (f : FsmState) (s : State) : (goto f s).fresh = s.fresh := rfl
@[simp] theorem goto_levelAt (f : FsmState) (s : State) (i : Nat) : levelAt (goto f s) i = levelAt s i := rfl

@[simp] theorem holdHalf_sampleRate (v : Level) (s : State) : (holdHalf v s).sampleRate = s.sampleRate := rfl
@[simp] theorem holdHalf_baudRate (v : Level) (s : State) : (holdHalf v s).baudRate = s.baudRate := rfl
@[simp] theorem holdHalf_startOffset (v : Level) (s : State) : (holdHalf v s).startOffset = s.startOffset := rfl
@[simp] theorem holdHalf_startOffsetValid (v : Level) (s : State) : (holdHalf v s).startOffsetValid = s.startOffsetValid := rfl
@[simp] theorem holdHalf_srcSel (v : Level) (s : State) : (holdHalf v s).srcSel = s.srcSel := rfl
@[simp] theorem holdHalf_length (v : Level) (s : State) : (holdHalf v s).length = s.length := rfl
@[simp] theorem holdHalf_busy (v : Level) (s : State) : (holdHalf v s).busy = s.busy := rfl
@[simp] theorem holdHalf_done (v : Level) (s : State) : (holdHalf v s).done = s.done := rfl
@[simp] theorem holdHalf_items (v : Level) (s : State) : (holdHalf v s).items = s.items := rfl
@[simp] theorem holdHalf_n (v : Level) (s : State) : (holdHalf v s).n = s.n := rfl
@[simp] theorem holdHalf_fsm (v : Level) (s : State) : (holdHalf v s).fsm = s.fsm := rfl
@[simp] theorem holdHalf_pend (v : Level) (s : State) : (holdHalf v s).pend = some v := rfl
@[simp] theorem holdHalf_value (v : Level) (s : State) : (holdHalf v s).value = s.value := rfl
@[simp] theorem holdHalf_bitCount (v : Level) (s : State) : (holdHalf v s).bitCount = s.bitCount := rfl
@[simp] theorem holdHalf_fsi (v : Level) (s : State) : (holdHalf v s).fsi = s.fsi := rfl
@[simp] theorem holdHalf_pc (v : Level) (s : State) : (holdHalf v s).pc = s.pc := rfl
@[simp] theorem holdHalf_total (v : Level) (s : State) : (holdHalf v s).total = s.total := rfl
@[simp] theorem holdHalf_src (v : Level) (s : State) : (holdHalf v s).src = s.src := rfl
@[simp] theorem holdHalf_digital (v : Level) (s : State) : (holdHalf v s).digital = s.digital := rfl
@[simp] theorem holdHalf_analog (v : Level) (s : State) : (holdHalf v s).analog = s.analog := rfl
@[simp] theorem holdHalf_encQueue (v : Level) (s : State) : (holdHalf v s).encQueue = s.encQueue := rfl
@[simp] theorem holdHalf_encFrame (v : Level) (s : State) : (holdHalf v s).encFrame = s.encFrame := rfl
@[simp] theorem holdHalf_encOut (v : Level) (s : State) : (holdHalf v s).encOut = s.encOut := rfl
@[simp] theorem holdHalf_script (v : Level) (s : State) : (holdHalf v s).script = s.script := rfl
@[simp] theorem holdHalf_answer (v : Level) (s : State) : (holdHalf v s).answer = s.answer := rfl
@[simp] theorem holdHalf_fresh (v : Level) (s : State) : (holdHalf v s).fresh = s.fresh := rfl
@[simp] theorem holdHalf_levelAt (v : Level) (s : State) (i : Nat) : levelAt (holdHalf v s) i = levelAt s i := rfl

@[simp] theorem arm_sampleRate (s : State) : (arm s).sampleRate = s.sampleRate := rfl
@[simp] theorem arm_baudRate (s : State) : (arm s).baudRate = s.baudRate := rfl
@[simp] theorem arm_startOffset (s : State) : (arm s).startOffset = s.startOffset := rfl
@[simp] theorem arm_startOffsetValid (s : State) : (arm s).startOffsetValid = s.startOffsetValid := rfl
@[simp] theorem arm_srcSel (s : State) : (arm s).srcSel = s.srcSel := rfl
@[simp] theorem arm_length (s : State) : (arm s).length = s.length := rfl
@[simp] theorem arm_busy (s : State) : (arm s).busy = s.busy := rfl
@[simp] theorem arm_done (s : State) : (arm s).done = s.done := rfl
@[simp] theorem arm_items (s : State) : (arm s).items = s.items := rfl
@[simp] theorem arm_n (s : State) : (arm s).n = s.n := rfl
@[simp] theorem arm_fsm (s : State) : (arm s).fsm = .startFirstHalf := rfl
@[simp] theorem arm_pend (s : State) : (arm s).pend = s.pend := rfl
@[simp] theorem arm_value (s : State) : (arm s).value = s.value := rfl
@[simp] theorem arm_bitCount (s : State) : (arm s).bitCount = s.bitCount := rfl
@[simp] theorem arm_fsi (s : State) : (arm s).fsi = s.pc := rfl
@[simp] theorem arm_pc (s : State) : (arm s).pc = s.pc := rfl
@[simp] theorem arm_total (s : State) : (arm s).total = s.total := rfl
@[simp] theorem arm_src (s : State) : (arm s).src = s.src := rfl
@[simp] theorem arm_digital (s : State) : (arm s).digital = s.digital := rfl
@[simp] theorem arm_analog (s : State) : (arm s).analog = s.analog := rfl
@[simp] theorem arm_encQueue (s : State) : (arm s).encQueue = s.encQueue := rfl
@[simp] theorem arm_encFrame (s : State) : (arm s).encFrame = s.encFrame := rfl
@[simp] theorem arm_encOut (s : State) : (arm s).encOut = s.encOut := rfl
@[simp] theorem arm_script (s : State) : (arm s).script = s.script := rfl
@[simp] theorem arm_answer (s : State) : (arm s).answer = s.answer := rfl
@[simp] theorem arm_fresh (s : State) : (arm s).fresh = s.fresh := rfl
@[simp] theorem arm_levelAt (s : State) (i : Nat) : levelAt (arm s) i = levelAt s i := rfl

@[simp] theorem stopFrame_sampleRate (s : State) : (stopFrame s).sampleRate = s.sampleRate := rfl
@[simp] theorem stopFrame_baudRate (s : State) : (stopFrame s).baudRate = s.baudRate := rfl
@[simp] theorem stopFrame_startOffset (s : State) : (stopFrame s).startOffset = s.startOffset := rfl
@[simp] theorem stopFrame_startOffsetValid (s : State) : (stopFrame s).startOffsetValid = s.startOffsetValid := rfl
@[simp] theorem stopFrame_srcSel (s : State) : (stopFrame s).srcSel = s.srcSel := rfl
@[simp] theorem stopFrame_length (s : State) : (stopFrame s).length = s.length := rfl
@[simp] theorem stopFrame_busy (s : State) : (stopFrame s).busy = s.busy := rfl
@[simp] theorem stopFrame_done (s : State) : (stopFrame s).done = s.done := rfl
@[simp] theorem stopFrame_items (s : State) : (stopFrame s).items = s.items ++ [dataItem s] := rfl
@[simp] theorem stopFrame_n (s : State) : (stopFrame s).n = s.n := rfl
@[simp] theorem stopFrame_fsm (s : State) : (stopFrame s).fsm = .startFirstHalf := rfl
@[simp] theorem stopFrame_pend (s : State) : (stopFrame s).pend = s.pend := rfl
@[simp] theorem stopFrame_value (s : State) : (stopFrame s).value = s.value := rfl
@[simp] theorem stopFrame_bitCount (s : State) : (stopFrame s).bitCount = s.bitCount := rfl
@[simp] theorem stopFrame_fsi (s : State) : (stopFrame s).fsi = s.pc := rfl
@[simp] theorem stopFrame_pc (s : State) : (stopFrame s).pc = s.pc := rfl
@[simp] theorem stopFrame_total (s : State) : (stopFrame s).total = s.total := rfl
@[simp] theorem stopFrame_src (s : State) : (stopFrame s).src = s.src := rfl
@[simp] theorem stopFrame_digital (s : State) : (stopFrame s).digital = s.digital := rfl
@[simp] theorem stopFrame_analog (s : State) : (stopFrame s).analog = s.analog := rfl
@[simp] theorem stopFrame_encQueue (s : State) : (stopFrame s).encQueue = s.encQueue := rfl
@[simp] theorem stopFrame_encFrame (s : State) : (stopFrame s).encFrame = s.encFrame := rfl
@[simp] theorem stopFrame_encOut (s : State) : (stopFrame s).encOut = s.encOut := rfl
@[simp] theorem stopFrame_script (s : State) : (stopFrame s).script = s.script := rfl
@[simp] theorem stopFrame_answer (s : State) : (stopFrame s).answer = s.answer := rfl
@[simp] theorem stopFrame_fresh (s : State) : (stopFrame s).fresh = s.fresh := rfl
@[simp] theorem stopFrame_levelAt (s : State) (i : Nat) : levelAt (stopFrame s) i = levelAt s i := rfl

@[simp] theorem raiseFrameError_sampleRate (s : State) : (raiseFrameError s).sampleRate = s.sampleRate := rfl
@[simp] theorem raiseFrameError_baudRate (s : State) : (raiseFrameError s).baudRate = s.baudRate := rfl
@[simp] theorem raiseFrameError_startOffset (s : State) : (raiseFrameError s).startOffset = s.startOffset := rfl
@[simp] theorem raiseFrameError_startOffsetValid (s : State) : (raiseFrameError s).startOffsetValid = s.startOffsetValid := rfl
@[simp] theorem raiseFrameError_srcSel (s : State) : (raiseFrameError s).srcSel = s.srcSel := rfl
@[simp] theorem raiseFrameError_length (s : State) : (raiseFrameError s).length = s.length := rfl
@[simp] theorem raiseFrameError_busy (s : State) : (raiseFrameError s).busy = s.busy := rfl
@[simp] theorem raiseFrameError_done (s : State) : (raiseFrameError s).done = s.done := rfl
@[simp] theorem raiseFrameError_items (s : State) : (raiseFrameError s).items = s.items ++ [errorItem s] := rfl
@[simp] theorem raiseFrameError_n (s : State) : (raiseFrameError s).n = s.n := rfl
@[simp] theorem raiseFrameError_fsm (s : State) : (raiseFrameError s).fsm = .idle := rfl
@[simp] theorem raiseFrameError_pend (s : State) : (raiseFrameError s).pend = s.pend := rfl
@[simp] theorem raiseFrameError_value (s : State) : (raiseFrameError s).value = s.value := rfl
@[simp] theorem raiseFrameError_bitCount (s : State) : (raiseFrameError s).bitCount = s.bitCount := rfl
@[simp] theorem raiseFrameError_fsi (s : State) : (raiseFrameError s).fsi = s.fsi := rfl
@[simp] theorem raiseFrameError_pc (s : State) : (raiseFrameError s).pc = s.pc := rfl
@[simp] theorem raiseFrameError_total (s : State) : (raiseFrameError s).total = s.total := rfl
@[simp] theorem raiseFrameError_src (s : State) : (raiseFrameError s).src = s.src := rfl
@[simp] theorem raiseFrameError_digital (s : State) : (raiseFrameError s).digital = s.digital := rfl
@[simp] theorem raiseFrameError_analog (s : State) : (raiseFrameError s).analog = s.analog := rfl
@[simp] theorem raiseFrameError_encQueue (s : State) : (raiseFrameError s).encQueue = s.encQueue := rfl
@[simp] theorem raiseFrameError_encFrame (s : State) : (raiseFrameError s).encFrame = s.encFrame := rfl
@[simp] theorem raiseFrameError_encOut (s : State) : (raiseFrameError s).encOut = s.encOut := rfl
@[simp] theorem raiseFrameError_script (s : State) : (raiseFrameError s).script = s.script := rfl
@[simp] theorem raiseFrameError_answer (s : State) : (raiseFrameError s).answer = s.answer := rfl
@[simp] theorem raiseFrameError_fresh (s : State) : (raiseFrameError s).fresh = s.fresh := rfl
@[simp] theorem raiseFrameError_levelAt (s : State) (i : Nat) : levelAt (raiseFrameError s) i = levelAt s i := rfl

@[simp] theorem endPass_sampleRate (s : State) : (endPass s).sampleRate = s.sampleRate := rfl
@[simp] theorem endPass_baudRate (s : State) : (endPass s).baudRate = s.baudRate := rfl
@[simp] theorem endPass_startOffset (s : State) : (endPass s).startOffset = s.startOffset := rfl
@[simp] theorem endPass_startOffsetValid (s : State) : (endPass s).startOffsetValid = s.startOffsetValid := rfl
@[simp] theorem endPass_srcSel (s : State) : (endPass s).srcSel = s.srcSel := rfl
@[simp] theorem endPass_length (s : State) : (endPass s).length = s.length := rfl
@[simp] theorem endPass_busy (s : State) : (endPass s).busy = false := rfl
@[simp] theorem endPass_done (s : State) : (endPass s).done = true := rfl
@[simp] theorem endPass_items (s : State) : (endPass s).items = s.items := rfl
@[simp] theorem endPass_n (s : State) : (endPass s).n = s.n := rfl
@[simp] theorem endPass_fsm (s : State) : (endPass s).fsm = s.fsm := rfl
@[simp] theorem endPass_pend (s : State) : (endPass s).pend = s.pend := rfl
@[simp] theorem endPass_value (s : State) : (endPass s).value = s.value := rfl
@[simp] theorem endPass_bitCount (s : State) : (endPass s).bitCount = s.bitCount := rfl
@[simp] theorem endPass_fsi (s : State) : (endPass s).fsi = s.fsi := rfl
@[simp] theorem endPass_pc (s : State) : (endPass s).pc = s.pc := rfl
@[simp] theorem endPass_total (s : State) : (endPass s).total = s.total := rfl
@[simp] theorem endPass_src (s : State) : (endPass s).src = s.src := rfl
@[simp] theorem endPass_digital (s : State) : (endPass s).digital = s.digital := rfl
@[simp] theorem endPass_analog (s : State) : (endPass s).analog = s.analog := rfl
@[simp] theorem endPass_encQueue (s : State) : (endPass s).encQueue = s.encQueue := rfl
@[simp] theorem endPass_encFrame (s : State) : (endPass s).encFrame = s.encFrame := rfl
@[simp] theorem endPass_encOut (s : State) : (endPass s).encOut = s.encOut := rfl
@[simp] theorem endPass_script (s : State) : (endPass s).script = s.script := rfl
@[simp] theorem endPass_answer (s : State) : (endPass s).answer = s.answer := rfl
@[simp] theorem endPass_fresh (s : State) : (endPass s).fresh = s.fresh := rfl
@[simp] theorem endPass_levelAt (s : State) (i : Nat) : levelAt (endPass s) i = levelAt s i := rfl

@[simp] theorem emitPair_sampleRate (a b : Level) (s : State) : (emitPair a b s).sampleRate = s.sampleRate := rfl
@[simp] theorem emitPair_baudRate (a b : Level) (s : State) : (emitPair a b s).baudRate = s.baudRate := rfl
@[simp] theorem emitPair_startOffset (a b : Level) (s : State) : (emitPair a b s).startOffset = s.startOffset := rfl
@[simp] theorem emitPair_startOffsetValid (a b : Level) (s : State) : (emitPair a b s).startOffsetValid = s.startOffsetValid := rfl
@[simp] theorem emitPair_srcSel (a b : Level) (s : State) : (emitPair a b s).srcSel = s.srcSel := rfl
@[simp] theorem emitPair_length (a b : Level) (s : State) : (emitPair a b s).length = s.length := rfl
@[simp] theorem emitPair_busy (a b : Level) (s : State) : (emitPair a b s).busy = s.busy := rfl
@[simp] theorem emitPair_done (a b : Level) (s : State) : (emitPair a b s).done = s.done := rfl
@[simp] theorem emitPair_items (a b : Level) (s : State) : (emitPair a b s).items = s.items := rfl
@[simp] theorem emitPair_n (a b : Level) (s : State) : (emitPair a b s).n = s.n := rfl
@[simp] theorem emitPair_fsm (a b : Level) (s : State) : (emitPair a b s).fsm = s.fsm := rfl
@[simp] theorem emitPair_pend (a b : Level) (s : State) : (emitPair a b s).pend = s.pend := rfl
@[simp] theorem emitPair_value (a b : Level) (s : State) : (emitPair a b s).value = s.value := rfl
@[simp] theorem emitPair_bitCount (a b : Level) (s : State) : (emitPair a b s).bitCount = s.bitCount := rfl
@[simp] theorem emitPair_fsi (a b : Level) (s : State) : (emitPair a b s).fsi = s.fsi := rfl
@[simp] theorem emitPair_pc (a b : Level) (s : State) : (emitPair a b s).pc = s.pc := rfl
@[simp] theorem emitPair_total (a b : Level) (s : State) : (emitPair a b s).total = s.total := rfl
@[simp] theorem emitPair_src (a b : Level) (s : State) : (emitPair a b s).src = s.src := rfl
@[simp] theorem emitPair_digital (a b : Level) (s : State) : (emitPair a b s).digital = s.digital := rfl
@[simp] theorem emitPair_analog (a b : Level) (s : State) : (emitPair a b s).analog = s.analog := rfl
@[simp] theorem emitPair_encQueue (a b : Level) (s : State) : (emitPair a b s).encQueue = s.encQueue := rfl
@[simp] theorem emitPair_encFrame (a b : Level) (s : State) : (emitPair a b s).encFrame = s.encFrame := rfl
@[simp] theorem emitPair_encOut (a b : Level) (s : State) : (emitPair a b s).encOut = s.encOut ++ [a, b] := rfl
@[simp] theorem emitPair_script (a b : Level) (s : State) : (emitPair a b s).script = s.script := rfl
@[simp] theorem emitPair_answer (a b : Level) (s : State) : (emitPair a b s).answer = s.answer := rfl
@[simp] theorem emitPair_fresh (a b : Level) (s : State) : (emitPair a b s).fresh = s.fresh := rfl
@[simp] theorem emitPair_levelAt (a b : Level) (s : State) (i : Nat) : levelAt (emitPair a b s) i = levelAt s i := rfl

@[simp] theorem scanned_sampleRate (s : State) : (scanned s).sampleRate = s.sampleRate := rfl
@[simp] theorem scanned_baudRate (s : State) : (scanned s).baudRate = s.baudRate := rfl
@[simp] theorem scanned_startOffset (s : State) : (scanned s).startOffset = s.startOffset := rfl
@[simp] theorem scanned_startOffsetValid (s : State) : (scanned s).startOffsetValid = s.startOffsetValid := rfl
@[simp] theorem scanned_srcSel (s : State) : (scanned s).srcSel = s.srcSel := rfl
@[simp] theorem scanned_length (s : State) : (scanned s).length = s.length := rfl
@[simp] theorem scanned_busy (s : State) : (scanned s).busy = s.busy := rfl
@[simp] theorem scanned_done (s : State) : (scanned s).done = s.done := rfl
@[simp] theorem scanned_items (s : State) : (scanned s).items = s.items := rfl
@[simp] theorem scanned_n (s : State) : (scanned s).n = s.n := rfl
@[simp] theorem scanned_fsm (s : State) : (scanned s).fsm = s.fsm := rfl
@[simp] theorem scanned_pend (s : State) : (scanned s).pend = s.pend := rfl
@[simp] theorem scanned_value (s : State) : (scanned s).value = s.value := rfl
@[simp] theorem scanned_bitCount (s : State) : (scanned s).bitCount = s.bitCount := rfl
@[simp] theorem scanned_fsi (s : State) : (scanned s).fsi = s.fsi := rfl
@[simp] theorem scanned_pc (s : State) : (scanned s).pc = (nextRun s).after := rfl
@[simp] theorem scanned_total (s : State) : (scanned s).total = s.total := rfl
@[simp] theorem scanned_src (s : State) : (scanned s).src = s.src := rfl
@[simp] theorem scanned_digital (s : State) : (scanned s).digital = s.digital := rfl
@[simp] theorem scanned_analog (s : State) : (scanned s).analog = s.analog := rfl
@[simp] theorem scanned_encQueue (s : State) : (scanned s).encQueue = s.encQueue := rfl
@[simp] theorem scanned_encFrame (s : State) : (scanned s).encFrame = s.encFrame := rfl
@[simp] theorem scanned_encOut (s : State) : (scanned s).encOut = s.encOut := rfl
@[simp] theorem scanned_script (s : State) : (scanned s).script = s.script := rfl
@[simp] theorem scanned_answer (s : State) : (scanned s).answer = s.answer := rfl
@[simp] theorem scanned_fresh (s : State) : (scanned s).fresh = s.fresh := rfl
@[simp] theorem scanned_levelAt (s : State) (i : Nat) : levelAt (scanned s) i = levelAt s i := rfl

@[simp] theorem setScript_sampleRate (ms : List Move) (s : State) : (setScript ms s).sampleRate = s.sampleRate := rfl
@[simp] theorem setScript_baudRate (ms : List Move) (s : State) : (setScript ms s).baudRate = s.baudRate := rfl
@[simp] theorem setScript_startOffset (ms : List Move) (s : State) : (setScript ms s).startOffset = s.startOffset := rfl
@[simp] theorem setScript_startOffsetValid (ms : List Move) (s : State) : (setScript ms s).startOffsetValid = s.startOffsetValid := rfl
@[simp] theorem setScript_srcSel (ms : List Move) (s : State) : (setScript ms s).srcSel = s.srcSel := rfl
@[simp] theorem setScript_length (ms : List Move) (s : State) : (setScript ms s).length = s.length := rfl
@[simp] theorem setScript_busy (ms : List Move) (s : State) : (setScript ms s).busy = s.busy := rfl
@[simp] theorem setScript_done (ms : List Move) (s : State) : (setScript ms s).done = s.done := rfl
@[simp] theorem setScript_items (ms : List Move) (s : State) : (setScript ms s).items = s.items := rfl
@[simp] theorem setScript_n (ms : List Move) (s : State) : (setScript ms s).n = s.n := rfl
@[simp] theorem setScript_fsm (ms : List Move) (s : State) : (setScript ms s).fsm = s.fsm := rfl
@[simp] theorem setScript_pend (ms : List Move) (s : State) : (setScript ms s).pend = s.pend := rfl
@[simp] theorem setScript_value (ms : List Move) (s : State) : (setScript ms s).value = s.value := rfl
@[simp] theorem setScript_bitCount (ms : List Move) (s : State) : (setScript ms s).bitCount = s.bitCount := rfl
@[simp] theorem setScript_fsi (ms : List Move) (s : State) : (setScript ms s).fsi = s.fsi := rfl
@[simp] theorem setScript_pc (ms : List Move) (s : State) : (setScript ms s).pc = s.pc := rfl
@[simp] theorem setScript_total (ms : List Move) (s : State) : (setScript ms s).total = s.total := rfl
@[simp] theorem setScript_src (ms : List Move) (s : State) : (setScript ms s).src = s.src := rfl
@[simp] theorem setScript_digital (ms : List Move) (s : State) : (setScript ms s).digital = s.digital := rfl
@[simp] theorem setScript_analog (ms : List Move) (s : State) : (setScript ms s).analog = s.analog := rfl
@[simp] theorem setScript_encQueue (ms : List Move) (s : State) : (setScript ms s).encQueue = s.encQueue := rfl
@[simp] theorem setScript_encFrame (ms : List Move) (s : State) : (setScript ms s).encFrame = s.encFrame := rfl
@[simp] theorem setScript_encOut (ms : List Move) (s : State) : (setScript ms s).encOut = s.encOut := rfl
@[simp] theorem setScript_script (ms : List Move) (s : State) : (setScript ms s).script = ms := rfl
@[simp] theorem setScript_answer (ms : List Move) (s : State) : (setScript ms s).answer = s.answer := rfl
@[simp] theorem setScript_fresh (ms : List Move) (s : State) : (setScript ms s).fresh = s.fresh := rfl
@[simp] theorem setScript_levelAt (ms : List Move) (s : State) (i : Nat) : levelAt (setScript ms s) i = levelAt s i := rfl

@[simp] theorem encoderCall_sampleRate (fs : List (List Bool)) (s : State) : (encoderCall fs s).sampleRate = s.sampleRate := rfl
@[simp] theorem encoderCall_baudRate (fs : List (List Bool)) (s : State) : (encoderCall fs s).baudRate = s.baudRate := rfl
@[simp] theorem encoderCall_startOffset (fs : List (List Bool)) (s : State) : (encoderCall fs s).startOffset = s.startOffset := rfl
@[simp] theorem encoderCall_startOffsetValid (fs : List (List Bool)) (s : State) : (encoderCall fs s).startOffsetValid = s.startOffsetValid := rfl
@[simp] theorem encoderCall_srcSel (fs : List (List Bool)) (s : State) : (encoderCall fs s).srcSel = s.srcSel := rfl
@[simp] theorem encoderCall_length (fs : List (List Bool)) (s : State) : (encoderCall fs s).length = s.length := rfl
@[simp] theorem encoderCall_busy (fs : List (List Bool)) (s : State) : (encoderCall fs s).busy = s.busy := rfl
@[simp] theorem encoderCall_done (fs : List (List Bool)) (s : State) : (encoderCall fs s).done = s.done := rfl
@[simp] theorem encoderCall_items (fs : List (List Bool)) (s : State) : (encoderCall fs s).items = s.items := rfl
@[simp] theorem encoderCall_n (fs : List (List Bool)) (s : State) : (encoderCall fs s).n = s.n := rfl
@[simp] theorem encoderCall_fsm (fs : List (List Bool)) (s : State) : (encoderCall fs s).fsm = s.fsm := rfl
@[simp] theorem encoderCall_pend (fs : List (List Bool)) (s : State) : (encoderCall fs s).pend = s.pend := rfl
@[simp] theorem encoderCall_value (fs : List (List Bool)) (s : State) : (encoderCall fs s).value = s.value := rfl
@[simp] theorem encoderCall_bitCount (fs : List (List Bool)) (s : State) : (encoderCall fs s).bitCount = s.bitCount := rfl
@[simp] theorem encoderCall_fsi (fs : List (List Bool)) (s : State) : (encoderCall fs s).fsi = s.fsi := rfl
@[simp] theorem encoderCall_pc (fs : List (List Bool)) (s : State) : (encoderCall fs s).pc = s.pc := rfl
@[simp] theorem encoderCall_total (fs : List (List Bool)) (s : State) : (encoderCall fs s).total = s.total := rfl
@[simp] theorem encoderCall_src (fs : List (List Bool)) (s : State) : (encoderCall fs s).src = s.src := rfl
@[simp] theorem encoderCall_digital (fs : List (List Bool)) (s : State) : (encoderCall fs s).digital = s.digital := rfl
@[simp] theorem encoderCall_analog (fs : List (List Bool)) (s : State) : (encoderCall fs s).analog = s.analog := rfl
@[simp] theorem encoderCall_encQueue (fs : List (List Bool)) (s : State) : (encoderCall fs s).encQueue = fs := rfl
@[simp] theorem encoderCall_encFrame (fs : List (List Bool)) (s : State) : (encoderCall fs s).encFrame = none := rfl
@[simp] theorem encoderCall_encOut (fs : List (List Bool)) (s : State) : (encoderCall fs s).encOut = [] := rfl
@[simp] theorem encoderCall_script (fs : List (List Bool)) (s : State) : (encoderCall fs s).script = s.script := rfl
@[simp] theorem encoderCall_answer (fs : List (List Bool)) (s : State) : (encoderCall fs s).answer = s.answer := rfl
@[simp] theorem encoderCall_fresh (fs : List (List Bool)) (s : State) : (encoderCall fs s).fresh = s.fresh := rfl
@[simp] theorem encoderCall_levelAt (fs : List (List Bool)) (s : State) (i : Nat) : levelAt (encoderCall fs s) i = levelAt s i := rfl

end Sys2Proof.Machine
end

