-- ==== Sys2Proof/Laws/Ops.lean ====
section
/-! SUPPORT. One spec lemma per shared operation: the classifier as inequalities, the scan, what follows an instruction in a
step, and what a step can do. -/

namespace Sys2Proof.Machine

/-! ## The classifier (R121 to R123) -/

theorem isLong_eq (len n : Nat) : isLong len n = decide (3 * n ≤ len) := rfl

theorem isHalfBit_eq (len n : Nat) : isHalfBit len n = decide (n < 2 * len) := by
  simp [isHalfBit, Config.halfNum, Config.halfDen]

theorem isSubTriple_eq (len n : Nat) : isSubTriple len n = decide (2 * len < 3 * n) := rfl

theorem isLong_iff (len n : Nat) : isLong len n = true ↔ 3 * n ≤ len := by
  rw [isLong_eq, decide_eq_true_iff]

theorem isHalfBit_iff (len n : Nat) : isHalfBit len n = true ↔ n < 2 * len := by
  rw [isHalfBit_eq, decide_eq_true_iff]

theorem isSubTriple_iff (len n : Nat) : isSubTriple len n = true ↔ 2 * len < 3 * n := by
  rw [isSubTriple_eq, decide_eq_true_iff]

/-! ## The scan (R111) -/

theorem sameLevelCount_le (s : State) (v : Level) (j fuel : Nat) : sameLevelCount s v j fuel ≤ fuel := by
  induction fuel generalizing j with
  | zero => simp [sameLevelCount]
  | succ k ih =>
    simp only [sameLevelCount]
    split
    · exact Nat.succ_le_succ (ih (j + 1))
    · exact Nat.zero_le _

/-- Every sample counted keeps the level. -/
theorem levelAt_of_lt_sameLevelCount {s : State} {v : Level} {j fuel : Nat} (i : Nat)
    (h : i < sameLevelCount s v j fuel) : levelAt s (j + i) = v := by
  induction fuel generalizing j i with
  | zero => simp [sameLevelCount] at h
  | succ k ih =>
    simp only [sameLevelCount] at h
    split at h
    next hv =>
      cases i with
      | zero => simpa using hv
      | succ i => simpa [Nat.add_assoc, Nat.add_comm 1 i] using ih (j := j + 1) i (by omega)
    next => omega

/-- The count stops at the bound or at a sample of the other level. -/
theorem levelAt_sameLevelCount {s : State} {v : Level} {j fuel : Nat} (h : sameLevelCount s v j fuel < fuel) :
    levelAt s (j + sameLevelCount s v j fuel) ≠ v := by
  induction fuel generalizing j with
  | zero => omega
  | succ k ih =>
    simp only [sameLevelCount] at h ⊢
    split
    next hv =>
      simp only [hv, if_true] at h
      have := ih (j := j + 1) (by omega)
      simpa [Nat.add_assoc, Nat.add_comm 1] using this
    next hv => simpa using hv

@[simp] theorem nextRun_offset (s : State) : (nextRun s).offset = s.pc := rfl

@[simp] theorem nextRun_level (s : State) : (nextRun s).level = levelAt s s.pc := rfl

theorem nextRun_len_pos (s : State) : 1 ≤ (nextRun s).len := by simp [nextRun]

theorem nextRun_after (s : State) : (nextRun s).after = s.pc + (nextRun s).len := rfl

/-! ## What follows an instruction (R85, R87) -/

theorem finishPass_running {s : State} (h : s.pc < s.total) : finishPass s = s := by simp [finishPass, h]

theorem finishPass_ended {s : State} (h : ¬ s.pc < s.total) : finishPass s = endPass s := by simp [finishPass, h]

@[simp] theorem retire_next (s : State) : retire (.next s) = .next (finishPass s) := rfl

theorem retire_eq_next {o : Host.Outcome State Fault Refusal} {t : State} :
    retire o = .next t ↔ ∃ u, o = .next u ∧ t = finishPass u := by
  cases o <;> simp [retire, eq_comm]

/-! ## What an instruction can do -/

/-- No instruction stops the machine (R170, R172): each has a next state. -/
theorem exec_eq_next (i : Instr) (s : State) : ∃ t, exec i s = .next t := by
  cases i <;> exact ⟨_, rfl⟩

/-! ## What a step can do -/

/-- The decoder's step (R85, R86): it scans and takes a transition, or ends a pass with nothing left, or does nothing. -/
theorem decoderStep_cases {s t : State} (h : decoderStep exec s = .next t) :
    (s.busy = true ∧ s.pc < s.total ∧ ∃ i u, decodeKey (keyOf s (nextRun s)) = .instr i ∧
      exec i (scanned s) = .next u ∧ t = finishPass u) ∨
    (s.busy = true ∧ ¬ s.pc < s.total ∧ t = endPass s) ∨
    (s.busy = false ∧ t = s) := by
  unfold decoderStep at h
  split at h
  next hb =>
    split at h
    next hp =>
      split at h
      next i hi =>
        obtain ⟨u, hu, ht⟩ := retire_eq_next.1 h
        exact .inl ⟨hb, hp, i, u, hi, hu, ht⟩
      next => cases h
    next hp => cases h; exact .inr (.inl ⟨hb, hp, rfl⟩)
  next hb => cases h; exact .inr (.inr ⟨by simpa using hb, rfl⟩)

/-- The encoder's step (R165): one symbol, or nothing. -/
theorem encoderStep_cases {s t : State} (h : encoderStep exec s = .next t) :
    (∃ i u, encoderFetch s = some (i, u) ∧ exec i u = .next t) ∨ (encoderFetch s = none ∧ t = s) := by
  unfold encoderStep at h
  split at h
  next i u hf => exact .inl ⟨i, u, hf, h⟩
  next hf => cases h; exact .inr ⟨hf, rfl⟩

/-! The step by who moves. -/

theorem step_running {s : State} (hs : s.script = []) (hb : s.busy = true) : step s = decoderStep exec s := by
  simp [step, cycle, hs, hb]

theorem step_resting {s : State} (hs : s.script = []) (hb : s.busy = false) : step s = encoderStep exec s := by
  simp [step, cycle, hs, hb]

theorem step_decoder {s : State} {rest : List Move} (hs : s.script = .decoder :: rest) :
    step s = decoderStep exec (setScript rest s) := by
  simp [step, cycle, hs]

theorem step_encoder {s : State} {rest : List Move} (hs : s.script = .encoder :: rest) :
    step s = encoderStep exec (setScript rest s) := by
  simp [step, cycle, hs]

theorem step_host {s : State} {op : HostOp} {rest : List Move} (hs : s.script = .host op :: rest) :
    step s = hostMove op (setScript rest s) := by
  simp [step, cycle, hs]

/-- One step is a step of the decoder, of the encoder, or a move of the outside world. -/
theorem step_cases {s t : State} (h : step s = .next t) :
    (s.script = [] ∧ s.busy = true ∧ decoderStep exec s = .next t) ∨
    (s.script = [] ∧ s.busy = false ∧ encoderStep exec s = .next t) ∨
    (∃ rest, s.script = .decoder :: rest ∧ decoderStep exec (setScript rest s) = .next t) ∨
    (∃ rest, s.script = .encoder :: rest ∧ encoderStep exec (setScript rest s) = .next t) ∨
    (∃ op rest, s.script = .host op :: rest ∧ hostMove op (setScript rest s) = .next t) := by
  unfold step cycle at h
  split at h
  next hs =>
    split at h
    next hb => exact .inl ⟨hs, hb, h⟩
    next hb => exact .inr (.inl ⟨hs, by simpa using hb, h⟩)
  next rest hs => exact .inr (.inr (.inl ⟨rest, hs, h⟩))
  next rest hs => exact .inr (.inr (.inr (.inl ⟨rest, hs, h⟩)))
  next op rest hs => exact .inr (.inr (.inr (.inr ⟨op, rest, hs, h⟩)))

/-- A start leaves a running pass with the session of R36, or has ended it at once (R82, R84). -/
theorem passStart_cases (s : State) :
    (3 ≤ (passInit s).n ∧ (passInit s).pc < (passInit s).total ∧ passStart s = passInit s) ∨
    (((passInit s).n < 3 ∨ ¬ (passInit s).pc < (passInit s).total) ∧ passStart s = endPass (passInit s)) := by
  have e : passStart s = if (passInit s).n < 3 then endPass (passInit s)
      else if (passInit s).pc < (passInit s).total then passInit s else endPass (passInit s) := rfl
  by_cases h : (passInit s).n < 3
  · exact .inr ⟨.inl h, by rw [e, if_pos h]⟩
  · by_cases hp : (passInit s).pc < (passInit s).total
    · exact .inl ⟨by omega, hp, by rw [e, if_neg h, if_pos hp]⟩
    · exact .inr ⟨.inr hp, by rw [e, if_neg h, if_neg hp]⟩

end Sys2Proof.Machine
end

