-- ==== Sys2Proof/Laws/Decode.lean ====
section
/-! SUPPORT. What the key table selects, state by state, as one choice on the bits of a key: no proof about a transition
needs the masks. -/

namespace Sys2Proof.Machine

/-- The instruction of a key, by the bits `v h t g p` under the letters of R64. -/
def chosen (f : FsmState) (v h t g p : Bool) : Instr :=
  match f with
  | .idle => bif v && g then .idleArm h t p else .idleHold v h t g p
  | .startFirstHalf => bif !v && h && t then .sf1Accept g p else .sf1Reject v h t g p
  | .startSecondHalf =>
    bif v && h && !g then (bif t then .ss2Half p else .ss2Full p) else .ss2Reject v h t g p
  | .dataFirstHalf => bif !h then .df1Short v t g p else bif g then .df1Stop v t p else .df1Next v t p
  | .dataSecondHalf =>
    bif !h || p then .ds2Err v h t g p
    else bif g then .ds2BitStop v t else bif t then .ds2BitHalf v else .ds2BitFull v

theorem decodeKey_packKey (f : FsmState) (v h t g p : Bool) :
    decodeKey (packKey f.code (packCls v h t g) p) = .instr (chosen f v h t g p) := by
  cases f <;> cases v <;> cases h <;> cases t <;> cases g <;> cases p <;> rfl

theorem encode_chosen (f : FsmState) (v h t g p : Bool) :
    encode (chosen f v h t g p) = .key (packKey f.code (packCls v h t g) p) := by
  cases f <;> cases v <;> cases h <;> cases t <;> cases g <;> cases p <;> rfl

/-- The instruction a scanned run selects (R64, R65). -/
theorem decodeKey_keyOf (s : State) (r : Run) :
    decodeKey (keyOf s r) = .instr (chosen s.fsm r.level (isHalfBit r.len s.n) (isSubTriple r.len s.n)
      (isLong r.len s.n) (pendMatches s r.level)) :=
  decodeKey_packKey _ _ _ _ _ _

theorem pendMatches_eq (s : State) (v : Level) : pendMatches s v = decide (s.pend = some v) := by
  unfold pendMatches
  rw [Bool.eq_iff_iff]
  simp

end Sys2Proof.Machine
end

