-- ==== Sys2Proof/Laws/PerInstr.lean ====
section
/-! SUPPORT. Statements about every instruction as syntax, one lemma per constructor. -/

namespace Sys2Proof.Laws

/-- The row of R65 an instruction belongs to, by its place in the table; the encoder's symbols have none. -/
def rowIndex : Instr → Nat
  | .idleArm _ _ _ => 0
  | .idleHold _ _ _ _ _ => 1
  | .sf1Accept _ _ => 2
  | .sf1Reject _ _ _ _ _ => 3
  | .ss2Half _ => 4
  | .ss2Full _ => 5
  | .ss2Reject _ _ _ _ _ => 6
  | .df1Short _ _ _ _ => 7
  | .df1Stop _ _ _ => 8
  | .df1Next _ _ _ => 9
  | .ds2BitStop _ _ => 10
  | .ds2BitHalf _ => 11
  | .ds2BitFull _ => 12
  | .ds2Err _ _ _ _ _ => 13
  | .encStart => 14
  | .encBit1 => 14
  | .encBit0 => 14
  | .encIdle => 14

/-- The word of an instruction matches its own row, and the row reads the instruction back from it; an encoder symbol is
not the unused `00`. -/
def InRow.Statement (i : Instr) : Prop :=
  match encode i, keyTable[rowIndex i]? with
  | .key k, some r => r.takes k = true ∧ r.build k = i
  | .key _, none => False
  | .hb2 h, _ => h ≠ 0

theorem InRow.idleArm (h t p : Bool) : InRow.Statement (.idleArm h t p) := by
  cases h <;> cases t <;> cases p <;> exact ⟨rfl, rfl⟩

theorem InRow.idleHold (v h t g p : Bool) : InRow.Statement (.idleHold v h t g p) := by
  cases v <;> cases h <;> cases t <;> cases g <;> cases p <;> exact ⟨rfl, rfl⟩

theorem InRow.sf1Accept (g p : Bool) : InRow.Statement (.sf1Accept g p) := by
  cases g <;> cases p <;> exact ⟨rfl, rfl⟩

theorem InRow.sf1Reject (v h t g p : Bool) : InRow.Statement (.sf1Reject v h t g p) := by
  cases v <;> cases h <;> cases t <;> cases g <;> cases p <;> exact ⟨rfl, rfl⟩

theorem InRow.ss2Half (p : Bool) : InRow.Statement (.ss2Half p) := by
  cases p <;> exact ⟨rfl, rfl⟩

theorem InRow.ss2Full (p : Bool) : InRow.Statement (.ss2Full p) := by
  cases p <;> exact ⟨rfl, rfl⟩

theorem InRow.ss2Reject (v h t g p : Bool) : InRow.Statement (.ss2Reject v h t g p) := by
  cases v <;> cases h <;> cases t <;> cases g <;> cases p <;> exact ⟨rfl, rfl⟩

theorem InRow.df1Short (v t g p : Bool) : InRow.Statement (.df1Short v t g p) := by
  cases v <;> cases t <;> cases g <;> cases p <;> exact ⟨rfl, rfl⟩

theorem InRow.df1Stop (v t p : Bool) : InRow.Statement (.df1Stop v t p) := by
  cases v <;> cases t <;> cases p <;> exact ⟨rfl, rfl⟩

theorem InRow.df1Next (v t p : Bool) : InRow.Statement (.df1Next v t p) := by
  cases v <;> cases t <;> cases p <;> exact ⟨rfl, rfl⟩

theorem InRow.ds2BitStop (v t : Bool) : InRow.Statement (.ds2BitStop v t) := by
  cases v <;> cases t <;> exact ⟨rfl, rfl⟩

theorem InRow.ds2BitHalf (v : Bool) : InRow.Statement (.ds2BitHalf v) := by
  cases v <;> exact ⟨rfl, rfl⟩

theorem InRow.ds2BitFull (v : Bool) : InRow.Statement (.ds2BitFull v) := by
  cases v <;> exact ⟨rfl, rfl⟩

theorem InRow.ds2Err (v h t g p : Bool) : InRow.Statement (.ds2Err v h t g p) := by
  cases v <;> cases h <;> cases t <;> cases g <;> cases p <;> exact ⟨rfl, rfl⟩

theorem InRow.encStart : InRow.Statement .encStart :=
  show (1 : Hb2) ≠ 0 by decide

theorem InRow.encBit1 : InRow.Statement .encBit1 :=
  show (1 : Hb2) ≠ 0 by decide

theorem InRow.encBit0 : InRow.Statement .encBit0 :=
  show (2 : Hb2) ≠ 0 by decide

theorem InRow.encIdle : InRow.Statement .encIdle :=
  show (3 : Hb2) ≠ 0 by decide

end Sys2Proof.Laws
end

