-- ==== Sys2Proof/Tests/Slice0.lean ====
section
/-! SUPPORT. The model's own tests. Expected values come from spec/95_test_vectors.md (its T, W, E vectors and section 2.1),
from the tables of spec/30_encoding.md, or from the rule named. The last part shows, for every statement with hypotheses, a
concrete case that meets them. -/

namespace Sys2Proof.Tests

open Sys2Proof Sys2Proof.Machine

/-! ## Well-formedness: an ill-formed term for each check -/

theorem test_wf_refuses_idle_hold_of_long_high : (Instr.idleHold true true false true false).wf = false := by decide
theorem test_wf_refuses_sf1_reject_of_low_half : (Instr.sf1Reject false true true false false).wf = false := by decide
theorem test_wf_refuses_ss2_reject_of_high_full : (Instr.ss2Reject true true false false true).wf = false := by decide
theorem test_wf_refuses_ds2_err_of_good_half : (Instr.ds2Err true true true false false).wf = false := by decide
theorem test_wf_accepts_idle_hold_of_long_low : (Instr.idleHold false true false true false).wf = true := by decide

/-! ## Decoding: words written out bit by bit from the patterns of R65 and from R69 -/

theorem test_decode_idle_arm : decodeKey 0b00011010 = .instr (.idleArm true false false) := by decide
theorem test_decode_idle_hold : decodeKey 0b00001010 = .instr (.idleHold false true false true false) := by decide
theorem test_decode_sf1_accept : decodeKey 0b00101101 = .instr (.sf1Accept false true) := by decide
theorem test_decode_sf1_reject : decodeKey 0b00111100 = .instr (.sf1Reject true true true false false) := by decide
theorem test_decode_ss2_half : decodeKey 0b01011100 = .instr (.ss2Half false) := by decide
theorem test_decode_ss2_full : decodeKey 0b01011000 = .instr (.ss2Full false) := by decide
theorem test_decode_ss2_reject : decodeKey 0b01011010 = .instr (.ss2Reject true true false true false) := by decide
theorem test_decode_df1_short : decodeKey 0b01110100 = .instr (.df1Short true true false false) := by decide
theorem test_decode_df1_stop : decodeKey 0b01111011 = .instr (.df1Stop true false true) := by decide
theorem test_decode_df1_next : decodeKey 0b01101101 = .instr (.df1Next false true true) := by decide
theorem test_decode_ds2_bit_stop : decodeKey 0b10011010 = .instr (.ds2BitStop true false) := by decide
theorem test_decode_ds2_bit_half : decodeKey 0b10001100 = .instr (.ds2BitHalf false) := by decide
theorem test_decode_ds2_bit_full : decodeKey 0b10011000 = .instr (.ds2BitFull true) := by decide
theorem test_decode_ds2_err : decodeKey 0b10011011 = .instr (.ds2Err true true false true true) := by decide
theorem test_decode_reserved_state : decodeKey 0b11100000 = .reject .reservedState := by decide
theorem test_decode_enc_start : decodeHb2 true 0b01 = .instr .encStart := by decide
theorem test_decode_enc_bit1 : decodeHb2 false 0b01 = .instr .encBit1 := by decide
theorem test_decode_enc_bit0 : decodeHb2 false 0b10 = .instr .encBit0 := by decide
theorem test_decode_enc_idle : decodeHb2 false 0b11 = .instr .encIdle := by decide
theorem test_decode_hb2_zero : decodeHb2 false 0b00 = .reject .noSuchSymbol := by decide

/-- The byte of each opcode-table row's "match" decodes to the row; ENC.BIT1 shares its symbol with ENC.START. -/
theorem test_table_words : (decodeTableWord 8 0x12).map Instr.isFirst = some false ∧
    decodeTableWord 8 0x00 = some (.idleHold false false false false false) ∧
    decodeTableWord 8 0x80 = some (.ds2Err false false false false false) ∧
    decodeTableWord 8 0x01 = some .encStart ∧ decodeTableWord 8 0x02 = some .encBit0 ∧
    decodeTableWord 8 0x03 = some .encIdle ∧ decodeTableWord 8 0xA0 = none := by decide

/-! ## One step on a small state -/

/-- A pass with N = 4 about to scan a run of `len` samples of level `v` at `offset`, the next sample of the other level. -/
def atRun (f : FsmState) (pend : Option Level) (value bitCount fsi : Nat) (v : Level) (len offset total : Nat) : State :=
  { State.reset with
    busy := true, n := 4, fsm := f, pend := pend, value := value, bitCount := bitCount, fsi := fsi,
    pc := offset, total := total,
    digital := if v then fillDigital true offset len []
      else Memory.write unwrittenLevel (offset + len) true [] }

/-- The columns of the step tables of 95_test_vectors.md section 2.5 after a step. -/
structure Seen where
  fsm : FsmState
  pend : Option Level
  value : Nat
  bitCount : Nat
  fsi : Nat
  items : List Item
  deriving DecidableEq, Repr

/-- What a step leaves, in those columns. -/
def seen : Host.Outcome State Fault Refusal → Option Seen
  | .next t => some ⟨t.fsm, t.pend, t.value, t.bitCount, t.fsi, t.items⟩
  | _ => none

/-- `Data{value, bit_count, start, stop}`. -/
def dataOf (v c a b : Nat) : Item := ⟨.data, some v, some c, a, some b⟩
/-- `FrameError{start, stop}`. -/
def errorOf (a b : Nat) : Item := ⟨.frameError, none, none, a, some b⟩

theorem test_idle_arm_T1 : seen (step (atRun .idle none 0 0 0 true 12 0 100)) =
    some ⟨.startFirstHalf, none, 0, 0, 12, []⟩ := by decide
theorem test_idle_hold_T2 : seen (step (atRun .idle none 0 0 0 true 11 0 100)) =
    some ⟨.idle, none, 0, 0, 0, []⟩ := by decide
theorem test_idle_hold_low_T3 : seen (step (atRun .idle none 0 0 0 false 12 0 100)) =
    some ⟨.idle, none, 0, 0, 0, []⟩ := by decide
theorem test_sf1_accept_T13 : seen (step (atRun .startFirstHalf (some true) 37 6 52 false 4 52 100)) =
    some ⟨.startSecondHalf, some true, 0, 0, 52, []⟩ := by decide
theorem test_sf1_reject_T10 : seen (step (atRun .startFirstHalf none 0 0 12 false 6 12 100)) =
    some ⟨.idle, none, 0, 0, 12, []⟩ := by decide
theorem test_sf1_reject_T12 : seen (step (atRun .startFirstHalf none 0 0 12 true 4 12 100)) =
    some ⟨.idle, none, 0, 0, 12, []⟩ := by decide
theorem test_ss2_half_T16 : seen (step (atRun .startSecondHalf none 0 0 12 true 5 16 100)) =
    some ⟨.dataFirstHalf, none, 0, 0, 12, []⟩ := by decide
theorem test_ss2_full_T17 : seen (step (atRun .startSecondHalf none 0 0 12 true 6 16 100)) =
    some ⟨.dataSecondHalf, some true, 0, 0, 12, []⟩ := by decide
theorem test_ss2_reject_T19 : seen (step (atRun .startSecondHalf none 0 0 12 true 12 16 100)) =
    some ⟨.idle, none, 0, 0, 12, []⟩ := by decide
theorem test_df1_short_T31 : seen (step (atRun .dataFirstHalf (some true) 5 3 12 false 2 98 100)) =
    some ⟨.idle, some true, 5, 3, 12, [errorOf 12 100]⟩ := by decide
theorem test_df1_stop_T29 : seen (step (atRun .dataFirstHalf none 0 0 12 false 12 20 100)) =
    some ⟨.startFirstHalf, none, 0, 0, 32, [dataOf 0 0 12 28]⟩ := by decide
theorem test_df1_stop_clamp_T48 : seen (step (atRun .dataFirstHalf (some false) 1 1 12 true 12 16 28)) =
    some ⟨.startFirstHalf, some false, 1, 1, 28, [dataOf 1 1 12 27]⟩ := by decide
theorem test_df1_next_T24 : seen (step (atRun .dataFirstHalf none 0 0 12 false 8 20 100)) =
    some ⟨.dataSecondHalf, some false, 0, 0, 12, []⟩ := by decide
theorem test_ds2_bit_stop_T37 : seen (step (atRun .dataSecondHalf (some true) 2 2 12 false 12 40 100)) =
    some ⟨.startFirstHalf, some true, 4, 3, 52, [dataOf 4 3 12 28]⟩ := by decide
theorem test_ds2_bit_half_T32 : seen (step (atRun .dataSecondHalf (some false) 2 2 12 true 4 40 100)) =
    some ⟨.dataFirstHalf, some false, 5, 3, 12, []⟩ := by decide
theorem test_ds2_bit_full_T36 : seen (step (atRun .dataSecondHalf (some true) 2 2 12 false 8 40 100)) =
    some ⟨.dataSecondHalf, some false, 4, 3, 12, []⟩ := by decide
theorem test_ds2_err_short_T38 : seen (step (atRun .dataSecondHalf (some false) 2 2 12 true 2 40 100)) =
    some ⟨.idle, some false, 2, 2, 12, [errorOf 12 42]⟩ := by decide
theorem test_ds2_err_wins_over_stop_T42 : seen (step (atRun .dataSecondHalf (some true) 2 2 12 true 12 40 100)) =
    some ⟨.idle, some true, 2, 2, 12, [errorOf 12 52]⟩ := by decide

/-- The cursor, BUSY and DONE after a step. -/
def ending : Host.Outcome State Fault Refusal → Option (Nat × Bool × Bool)
  | .next t => some (t.pc, t.busy, t.done)
  | _ => none

/-- R87: the pass goes on while samples are left, and ends with the run that reaches `total`. -/
theorem test_pass_goes_on : ending (step (atRun .idle none 0 0 0 true 12 0 13)) = some (12, true, false) := by decide
theorem test_pass_ends : ending (step (atRun .idle none 0 0 0 true 12 0 12)) = some (12, false, true) := by decide

/-! ## The encoder (section 2.7 of 95_test_vectors.md) -/

/-- A state whose encoder is in the middle of a frame. -/
def sending (frame : Option (List Bool)) (queue : List (List Bool)) : State :=
  { State.reset with encFrame := frame, encQueue := queue, encOut := [true] }

/-- The encoder's output after a step. -/
def sent : Host.Outcome State Fault Refusal → Option (List Level × Option (List Bool))
  | .next t => some (t.encOut, t.encFrame)
  | _ => none

theorem test_enc_start : sent (step (sending none [[true]])) = some ([true, false, true], some [true]) := by decide
theorem test_enc_bit1 : sent (step (sending (some [true, false]) [])) = some ([true, false, true], some [false]) := by decide
theorem test_enc_bit0 : sent (step (sending (some [false]) [])) = some ([true, true, false], some []) := by decide
theorem test_enc_idle : sent (step (sending (some []) [])) = some ([true, true, true], none) := by decide
theorem test_encode_E4 : encodeBits [true, false] = [false, true, false, true, true, false, true, true] := by decide
theorem test_bits_of_0xA5 : bitsOf 0xA5 8 = [true, false, true, false, false, true, false, true] := by decide

/-! ## The host interface -/

/-- A state about to start a pass, with the rates and length given. -/
def starting (sr br len : Nat) (off : Option Nat) : State :=
  { State.reset with
    sampleRate := BitVec.ofNat 32 sr, baudRate := BitVec.ofNat 32 br, length := len,
    startOffset := off.getD 0, startOffsetValid := off.isSome, items := [errorOf 1 2], done := true,
    script := [.host (.write .ctrl 1)] }

/-- N, cursor, BUSY, DONE and ITEM_COUNT after a step. -/
def started : Host.Outcome State Fault Refusal → Option (Nat × Nat × Bool × Bool × Nat)
  | .next t => some (t.n, t.pc, t.busy, t.done, t.items.length)
  | _ => none

theorem test_start_9600_2400 : started (step (starting 9600 2400 100 (some 40))) = some (4, 40, true, false, 0) := by decide
theorem test_start_offset_out_of_range : started (step (starting 9600 2400 100 (some 100))) =
    some (4, 0, true, false, 0) := by decide
theorem test_start_aborts_7199 : started (step (starting 7199 2400 100 none)) = some (2, 0, false, true, 0) := by decide
theorem test_start_zero_baud : started (step (starting 9600 0 100 none)) = some (0, 0, false, true, 0) := by decide
theorem test_start_empty_source : started (step (starting 9600 2400 0 none)) = some (4, 0, false, true, 0) := by decide

/-- The host's answer after a step. -/
def answered : Host.Outcome State Fault Refusal → Option Answer
  | .next t => some t.answer
  | _ => none

theorem test_read_baud_after_reset : answered (step { State.reset with script := [.host (.read .baudRate)] }) =
    some (.register 2400) := by decide
theorem test_read_status_done : answered (step { State.reset with done := true, script := [.host (.read .status)] }) =
    some (.register 2) := by decide
theorem test_read_item : answered (step { State.reset with
    items := [dataOf 1 1 12 28], script := [.host (.readItem 0)] }) = some (.item (dataOf 1 1 12 28)) := by decide

/-- The example of R102: threshold 100, samples 99, 100, 101, 0, in the order of the numbers. -/
theorem test_level_at_threshold :
    [99, 100, 101, 0].map (levelOfSample (fun c => (c : Rat)) 100) = [false, true, true, false] := by decide

/-- R68 and program P1: the packed word of `Data{165, 8, 12, 28}` at the default widths. -/
theorem test_item_word_P1 : packItem .default ⟨0, 0, 0⟩ (dataOf 165 8 12 28) = 0x5280040000000E000000064 := by decide

/-! ## Whole buffers through the pure function (section 2.6 of 95_test_vectors.md) -/

theorem test_decode_W1 : decodeAt (high 12 ++ low 4 ++ high 4 ++ low 4 ++ high 16) 4 = [dataOf 1 1 12 28] := by decide
theorem test_decode_W11 : decodeAt (high 12 ++ low 4 ++ high 4 ++ low 4 ++ high 2) 4 = [errorOf 12 26] := by decide
theorem test_decode_W12 : decodeAt (high 12 ++ low 4 ++ high 4 ++ low 4 ++ high 4) 4 = [] := by decide

/-! ## A table word is fetched and run -/

theorem test_fetch_idle_arm : seen (step (State.reset.withFetchWord 8 0x12)) =
    some ⟨.startFirstHalf, some false, 0, 0, 12, []⟩ := by decide
theorem test_fetch_ds2_err : seen (step (State.reset.withFetchWord 8 0x80)) =
    some ⟨.idle, some true, 0, 0, 0, [errorOf 0 1]⟩ := by decide
theorem test_fetch_enc_bit0 : sent (step (State.reset.withFetchWord 2 2)) = some ([true, false], some []) := by decide

/-! ## Witnesses: the hypotheses of each statement can be met, each clause at a boundary value -/

theorem witness_DecodeUndoesEncode : (Instr.ds2Err false true true true true).wf = true := by decide

theorem witness_EncodeUndoesDecode : decodeKey 0x9F = .instr (.ds2Err true true true true true) ∧
    decodeHb2 false 3 = .instr .encIdle := by decide

theorem witness_KeyTakesLowestMatchingRow : (keyState 0x9F).toNat ≤ 4 ∧ (0x9F : Key) &&& 0xE0 = 0x80 := by decide

theorem witness_StateCodesAndPseudoStates : keyState 0xA0 = 5 ∧ keyState 0xDF = 6 ∧ keyState 0xFF = 7 := by decide

theorem witness_KeyLayout : State.reset.pend = none := rfl

theorem witness_ItemLayout : ItemFits .default (dataOf 4294967295 65535 12 28) ∧ ItemFits .default (errorOf 12 26) := by
  unfold ItemFits; decide

theorem witness_ItemLayout_kinds :
    ((dataOf 0 0 0 0).kind = .data ∧ (dataOf 0 0 0 0).value.isSome = true ∧ (dataOf 0 0 0 0).bitCount.isSome = true) ∧
    ((errorOf 0 0).kind ≠ .data ∧ (errorOf 0 0).value = none ∧ (errorOf 0 0).bitCount = none) := by decide

theorem witness_FourClassesOfRuns : runClass 1 3 = .short ∧ runClass 2 3 = .half ∧ runClass 4 3 = .half ∧
    runClass 5 3 = .full ∧ runClass 8 3 = .full ∧ runClass 9 3 = .long := by decide

theorem witness_ScannerYieldsMaximalRun : (atRun .idle none 0 0 0 true 12 0 13).pc < 13 ∧
    (nextRun (atRun .idle none 0 0 0 true 12 0 13)).len = 12 ∧ (nextRun (atRun .idle none 0 0 0 true 12 0 12)).len = 12 := by
  decide

/-- The second state differs from the first in the sample beyond `total` only. -/
theorem witness_ScannerReadsOnlyTheRestOfTheBuffer :
    (atRun .idle none 0 0 0 true 1 0 1).pc < 1 ∧ levelAt (atRun .idle none 0 0 0 true 1 0 1) 1 = false ∧
    levelAt (atRun .idle none 0 0 0 true 2 0 1) 1 = true ∧
    levelAt (atRun .idle none 0 0 0 true 2 0 1) 0 = levelAt (atRun .idle none 0 0 0 true 1 0 1) 0 := by decide

/-- A state with moves to come. -/
def withScript (ms : List Move) (s : State) : State := { s with script := ms }

theorem witness_StepRunsTheDecodedInstruction :
    decodeKey (keyOf (atRun .idle none 0 0 0 true 12 0 12) (nextRun (atRun .idle none 0 0 0 true 12 0 12))) =
      .instr (.idleArm true false false) ∧
    (withScript [.decoder] (atRun .idle none 0 0 0 true 12 0 12)).script = .decoder :: [] := by decide

theorem witness_StepRunsTheDecodedInstruction_encoder :
    (encoderFetch (sending (some []) [])).map Prod.fst = some .encIdle ∧ (sending (some []) []).busy = false ∧
    (withScript [.encoder] (sending none [[]])).script = .encoder :: [] := by decide

theorem witness_EveryPassStepAdvances_decoder :
    (withScript [.decoder, .encoder] (atRun .idle none 0 0 0 true 1 0 1)).script = .decoder :: [.encoder] ∧
    (withScript [.decoder, .encoder] (atRun .idle none 0 0 0 true 1 0 1)).busy = true ∧
    (withScript [.decoder, .encoder] (atRun .idle none 0 0 0 true 1 0 1)).pc <
      (withScript [.decoder, .encoder] (atRun .idle none 0 0 0 true 1 0 1)).total := by decide

theorem witness_EveryPassStepAdvances : (atRun .idle none 0 0 0 true 1 0 1).script = [] ∧
    (atRun .idle none 0 0 0 true 1 0 1).busy = true ∧
    (atRun .idle none 0 0 0 true 1 0 1).pc < (atRun .idle none 0 0 0 true 1 0 1).total := by decide

/-- A state of the frame machine with N = 4. -/
def inState (f : FsmState) (pend : Option Level) : State := { State.reset with n := 4, fsm := f, pend := pend }

theorem witness_IdleTransitions : (inState .idle none).fsm = .idle ∧ 3 * (inState .idle none).n ≤ 12 ∧
    11 < 3 * (inState .idle none).n := by decide

theorem witness_StartFirstHalfTransitions : (inState .startFirstHalf none).fsm = .startFirstHalf ∧
    (inState .startFirstHalf none).n < 2 * 3 ∧ 2 * 5 < 3 * (inState .startFirstHalf none).n ∧
    2 * 2 ≤ (inState .startFirstHalf none).n ∧ 3 * (inState .startFirstHalf none).n ≤ 2 * 6 := by decide

theorem witness_StartSecondHalfTransitions : (inState .startSecondHalf none).fsm = .startSecondHalf ∧
    (inState .startSecondHalf none).n < 2 * 3 ∧ 2 * 5 < 3 * (inState .startSecondHalf none).n ∧
    3 * (inState .startSecondHalf none).n ≤ 2 * 6 ∧ 11 < 3 * (inState .startSecondHalf none).n ∧
    2 * 2 ≤ (inState .startSecondHalf none).n ∧ 3 * (inState .startSecondHalf none).n ≤ 12 := by decide

theorem witness_DataFirstHalfTransitions : (inState .dataFirstHalf none).fsm = .dataFirstHalf ∧
    2 * 2 ≤ (inState .dataFirstHalf none).n ∧ (inState .dataFirstHalf none).n < 2 * 3 ∧
    11 < 3 * (inState .dataFirstHalf none).n ∧ 3 * (inState .dataFirstHalf none).n ≤ 12 := by decide

theorem witness_DataSecondHalfTransitions : (inState .dataSecondHalf (some true)).fsm = .dataSecondHalf ∧
    (inState .dataSecondHalf (some true)).pend = some true ∧ (inState .dataSecondHalf (some true)).pend ≠ some false ∧
    2 * 2 ≤ (inState .dataSecondHalf (some true)).n ∧ (inState .dataSecondHalf (some true)).n < 2 * 3 ∧
    2 * 5 < 3 * (inState .dataSecondHalf (some true)).n ∧ 3 * (inState .dataSecondHalf (some true)).n ≤ 2 * 6 ∧
    11 < 3 * (inState .dataSecondHalf (some true)).n ∧ 3 * (inState .dataSecondHalf (some true)).n ≤ 12 := by decide

theorem witness_FrameOfSilentTransitions (s : State) :
    (Instr.ds2BitFull true).mnemonic = "DS2.BIT_FULL" ∧ ∃ t, exec (.ds2BitFull true) s = .next t := ⟨rfl, _, rfl⟩

theorem witness_FrameOfEmittingTransitions (s : State) :
    (Instr.ds2BitStop true false).mnemonic = "DS2.BIT_STOP" ∧ ∃ t, exec (.ds2BitStop true false) s = .next t :=
  ⟨rfl, _, rfl⟩

theorem witness_FrameOfEncoderSymbols (s : State) :
    Instr.encIdle.mnemonic = "ENC.IDLE" ∧ ∃ t, exec .encIdle s = .next t := ⟨rfl, _, rfl⟩

theorem witness_HardwareResetAbandonsThePass :
    (withScript [.host .reset] (atRun .idle none 0 0 0 true 12 0 100)).script = .host .reset :: [] ∧
    encoderActive (hardwareReset (atRun .idle none 0 0 0 true 12 0 100)) = false := by decide

theorem witness_ComputeNIsTheFloor : 0 < 1 ∧ computeN 7199 2400 = 2 ∧ computeN 7200 2400 = 3 := by decide

theorem witness_StartOffsetInRangeOrZero : (starting 9600 2400 100 (some 99)).startOffsetValid = true ∧
    (starting 9600 2400 100 (some 99)).startOffset < 100 ∧ (starting 9600 2400 100 none).startOffsetValid = false ∧
    100 ≤ (starting 9600 2400 100 (some 100)).startOffset := by decide

theorem witness_PassStartSetsTheSession : (starting 7200 2400 1 none).script = .host (.write .ctrl 1) :: [] ∧
    Nat.testBit 1 0 = true ∧ (starting 7200 2400 1 none).busy = false ∧
    (passStart (starting 7200 2400 1 none)).n = 3 ∧ 0 < (starting 7200 2400 1 none).length ∧
    (passStart (starting 7199 2400 1 none)).n < 3 := by decide

theorem witness_PassAbortsBelowMinN : (starting 7199 2400 9 none).script = .host (.write .ctrl 1) :: [] ∧
    (starting 7199 2400 9 none).busy = false ∧
    computeN (starting 7199 2400 9 none).sampleRate.toNat (starting 7199 2400 9 none).baudRate.toNat < 3 := by decide

theorem witness_EmptySourceGivesNoItems : (starting 9600 2400 0 none).script = .host (.write .ctrl 1) :: [] ∧
    (starting 9600 2400 0 none).busy = false ∧ (starting 9600 2400 0 none).length = 0 := by decide

theorem witness_RegisterReads : (withScript [.host (.read .itemCount)] State.reset).script =
    .host (.read .itemCount) :: [] ∧ (withScript [.host (.read .itemCount)] State.reset).busy = false := by decide

/-- Every register, at a value of the register and at one too wide for it; CTRL with and without a pass running. -/
theorem witness_RegisterWrites :
    (∀ r ∈ [HostReg.sampleRate, .baudRate, .startOffset, .startOffsetValid, .srcSel, .length, .status, .itemCount, .ctrl],
      ∀ v ∈ [0, 1, 2, 2 ^ 32], (withScript [.host (.write r v)] State.reset).script = .host (.write r v) :: []) ∧
    Nat.testBit 2 0 = false ∧ Nat.testBit 1 0 = true ∧ State.reset.busy = false ∧
    (withScript [.host (.write .ctrl 1)] (atRun .idle none 0 0 0 true 12 0 100)).busy = true := by decide

theorem witness_WritesDuringAPassDoNotTouchIt :
    (∀ r ∈ [HostReg.ctrl, .status, .sampleRate, .baudRate, .startOffset, .startOffsetValid, .srcSel, .length, .itemCount],
      (withScript [.host (.write r 1)] (atRun .idle none 0 0 0 true 12 0 100)).script = .host (.write r 1) :: []) ∧
    (withScript [.host (.write .ctrl 1)] (atRun .idle none 0 0 0 true 12 0 100)).busy = true := by decide

theorem witness_HostReadsHaveNoSideEffect :
    (withScript [.host (.readItem 0)] { State.reset with items := [errorOf 1 2] }).script =
      .host (.readItem 0) :: [] ∧ 0 < [errorOf 1 2].length ∧
    (withScript [.host (.read .status)] State.reset).script = .host (.read .status) :: [] := by decide

theorem witness_ItemSlotsReadBack : State.reset.busy = false ∧ [errorOf 1 2][0]? = some (errorOf 1 2) ∧
    [errorOf 1 2].length ≤ 1 ∧
    (withScript [.host (.readItem 1)] State.reset).script = .host (.readItem 1) :: [] := by decide

theorem witness_StoredSamplesReadBack : State.reset.busy = false ∧
    Memory.wf unwrittenLevel State.reset.digital = true ∧ Memory.wf unwrittenSample State.reset.analog = true ∧
    (withScript [.host (.storeDigital 0 true)] State.reset).script = .host (.storeDigital 0 true) :: [] ∧
    (withScript [.host (.storeAnalog 0 255)] State.reset).script = .host (.storeAnalog 0 255) :: [] := by decide

theorem witness_SampleStoreDuringAPassIsRefused :
    (withScript [.host (.storeDigital 0 true)] (atRun .idle none 0 0 0 true 12 0 100)).busy = true ∧
    (withScript [.host (.storeAnalog 0 1)] (atRun .idle none 0 0 0 true 12 0 100)).script =
      .host (.storeAnalog 0 1) :: [] := by decide

/-- A sample at the threshold, whatever the threshold is. -/
theorem witness_LevelOfASample : Memory.read unwrittenSample 0
    ({ State.reset with analog := [(0, Config.threshold)] } : State).analog = Config.threshold := rfl

/-- The frame `H12 L4 H4 L4` with one low data half scanned, a high run of `len` samples at the cursor. -/
def inFrame (len total : Nat) : State := atRun .dataSecondHalf (some false) 0 0 12 true len 24 total

/-- The invariant holds in the middle of a frame, so the statements that assume it say something. -/
theorem inFrame_inv (len total : Nat) (hd : Memory.wf unwrittenLevel (inFrame len total).digital = true)
    (hl : levelAt (inFrame len total) 24 = true) (ht : 24 < total) : Inv (inFrame len total) where
  digital := hd
  analog := rfl
  status := by simp [inFrame, atRun, State.reset]
  running := fun _ => ⟨show 3 ≤ 4 by decide, ht⟩
  phase := fun _ => by
    show 12 + 2 * (4 / 2 + 1) ≤ 24 ∧ 0 < 2 ^ 0 ∧ some false = some (!levelAt (inFrame len total) 24)
    rw [hl]
    decide
  items := by simp [inFrame, atRun, State.reset]
  ordered := by simp [inFrame, atRun, State.reset]
  past := by simp [inFrame, atRun, State.reset]
  longRuns := fun _ => by show (0 + 1) * (3 * 4) ≤ 24; decide
  count := by show 0 * (3 * 4) ≤ total; simp

theorem witness_EveryStepKeepsTheInvariant : Inv (inFrame 16 40) ∧ ∃ t, step (inFrame 16 40) = .next t :=
  ⟨inFrame_inv 16 40 (by decide) (by decide) (by decide), _, rfl⟩

theorem witness_PendNeverMatchesTheScannedLevel :
    Inv (inFrame 4 40) ∧ (inFrame 4 40).busy = true ∧ (inFrame 4 40).fsm = .dataSecondHalf :=
  ⟨inFrame_inv 4 40 (by decide) (by decide) (by decide), rfl, rfl⟩

theorem witness_FrameErrorsComeFromShortRuns : Inv (inFrame 2 40) ∧
    decodeKey (keyOf (inFrame 2 40) (nextRun (inFrame 2 40))) = .instr (.ds2Err true false true false false) :=
  ⟨inFrame_inv 2 40 (by decide) (by decide) (by decide), by decide⟩

theorem witness_DataItemsSpanFourN : Inv (inFrame 12 36) ∧ (inFrame 12 36).script = [] ∧ (inFrame 12 36).busy = true ∧
    decodeKey (keyOf (inFrame 12 36) (nextRun (inFrame 12 36))) = .instr (.ds2BitStop true false) :=
  ⟨inFrame_inv 12 36 (by decide) (by decide) (by decide), rfl, rfl, by decide⟩

theorem witness_DataItemsSpanFourN_decoder : Inv (withScript [.decoder] (inFrame 12 36)) ∧
    (withScript [.decoder] (inFrame 12 36)).script = .decoder :: [] ∧
    decodeKey (keyOf (withScript [.decoder] (inFrame 12 36)) (nextRun (withScript [.decoder] (inFrame 12 36)))) =
      .instr (.ds2BitStop true false) :=
  have hd := inFrame_inv 12 36 (by decide) (by decide) (by decide)
  ⟨⟨hd.digital, hd.analog, hd.status, hd.running, hd.phase, hd.items, hd.ordered, hd.past, hd.longRuns, hd.count⟩,
    rfl, by decide⟩

theorem witness_StoreIsAppendOnly : ∃ t, step (inFrame 16 40) = .next t := ⟨_, rfl⟩

theorem witness_OnlyThePassWritesTheSession :
    (∃ t, step (withScript [.host (.write .length 5)] (inFrame 16 40)) = .next t) ∧
    (HostOp.write .length 5 ≠ .reset) ∧ (∀ v, HostOp.write .length 5 ≠ .write .ctrl v) ∧
    (∃ t, step (withScript [.encoder] (sending (some []) [])) = .next t) ∧
    ((sending (some []) []).script = [] ∧ (sending (some []) []).busy = false ∧
      ∃ t, step (sending (some []) []) = .next t) ∧
    (withScript [.decoder] State.reset).script = .decoder :: [] ∧ (withScript [.decoder] State.reset).busy = false :=
  ⟨⟨_, rfl⟩, by decide, by simp, ⟨_, rfl⟩, ⟨rfl, rfl, _, rfl⟩, rfl, rfl⟩

theorem witness_OnlyTheOwnerWritesSamples : (inFrame 16 40).busy = true ∧
    ∃ t, step (withScript [.host .reset] (inFrame 16 40)) = .next t := ⟨rfl, _, rfl⟩

theorem witness_EveryPassEnds : (inFrame 16 40).script = [] ∧ (inFrame 16 40).busy = true ∧
    (inFrame 16 40).pc < (inFrame 16 40).total ∧
    (starting 9600 2400 1 none).script = [.host (.write .ctrl 1)] ∧ (starting 9600 2400 1 none).busy = false ∧
    (∀ m ∈ (withScript [.encoder, .decoder] (inFrame 16 40)).script, m = .decoder ∨ m = .encoder) := by decide

theorem witness_PassComputesDecode : (starting 9600 2400 40 none).script = [.host (.write .ctrl 1)] ∧
    Nat.testBit 1 0 = true ∧ (starting 9600 2400 40 none).busy = false := by decide

/-- Two starts that differ in what an earlier pass left; both end at once, the source being empty. -/
theorem witness_ReRunForgetsEarlierPasses :
    SameConfig (starting 9600 2400 0 none) { starting 9600 2400 0 none with items := [], value := 9 } ∧
    sourceLevels { starting 9600 2400 0 none with items := [], value := 9 } = sourceLevels (starting 9600 2400 0 none) ∧
    ending (stepN 1 (starting 9600 2400 0 none)) = some (0, false, true) ∧
    ending (stepN 1 { starting 9600 2400 0 none with items := [], value := 9 }) = some (0, false, true) := by
  unfold SameConfig; decide

theorem witness_FiniteWidthsAgreeWithinThePremise :
    (high 12 ++ low 4 ++ high 4 ++ low 4 ++ high 16).length + 4 * computeN 9600 2400 < 2 ^ 6 ∧
    1 ≤ min 1 (2 ^ 1 - 1) ∧
    decodePass (high 12 ++ low 4 ++ high 4 ++ low 4 ++ high 16) 9600 2400 false 0 = [dataOf 1 1 12 28] := by decide

theorem witness_EncoderRunComputesEncode :
    (withScript [.host (.encode [[true], []])] State.reset).script = [.host (.encode [[true], []])] ∧
    State.reset.busy = false := by decide

theorem witness_RoundTripLaw : 3 ≤ 3 ∧ computeN 7200 2400 = 3 ∧ 3 * 3 ≤ 9 ∧ FrameOk 3 ([false], 3) ∧
    FrameOk 3 ([true], 0) := by unfold FrameOk; decide

theorem witness_BackToBackLaw : 3 ≤ 3 ∧ computeN 7200 2400 = 3 ∧ 3 * 3 ≤ 9 ∧
    ∀ f ∈ [([true], 0), ([true, false], 3)], FrameOk 3 f := by unfold FrameOk; decide

end Sys2Proof.Tests
end

section
/-! Reset and the start of a pass (R35, R36, R80 to R84): a start is the set-up of R36 with BUSY and DONE decided at once,
from which each field's value follows. -/

namespace Sys2Proof.Proofs

open Sys2Proof Sys2Proof.Machine

/-! ## The start of a pass -/

/-- Whether a start in state `s` leaves a pass running: N is at least MIN_N and there is a sample to scan (R82, R84). -/
def startRuns (s : State) : Bool := decide (3 ≤ computeN s.sampleRate.toNat s.baudRate.toNat ∧ 0 < s.length)

theorem startRuns_iff (s : State) :
    startRuns s = true ↔ 3 ≤ computeN s.sampleRate.toNat s.baudRate.toNat ∧ 0 < s.length :=
  decide_eq_true_iff

theorem startRuns_eq_false_iff (s : State) :
    startRuns s = false ↔ computeN s.sampleRate.toNat s.baudRate.toNat < 3 ∨ s.length = 0 := by
  rw [← Bool.not_eq_true, startRuns_iff]
  omega

/-- The start offset as one choice on propositions (R83). -/
theorem startOffsetOf_eq (valid : Bool) (off total : Nat) :
    startOffsetOf valid off total = if valid = true ∧ off < total then off else 0 :=
  if_congr (by simp) rfl rfl

/-- The start offset is a sample of the source exactly when the source has one (R83). -/
theorem startOffsetOf_lt_iff (valid : Bool) (off total : Nat) : startOffsetOf valid off total < total ↔ 0 < total := by
  rw [startOffsetOf_eq]
  split
  next h => omega
  next => rfl

/-- A start is the set-up of R36 with BUSY and DONE as `startRuns` says. -/
theorem passStart_eq (s : State) : passStart s = { passInit s with busy := startRuns s, done := !startRuns s } := by
  have hpc : (passInit s).pc < (passInit s).total ↔ 0 < s.length := startOffsetOf_lt_iff _ _ _
  rcases passStart_cases s with ⟨hn, hp, e⟩ | ⟨hstop, e⟩
  · have hr : startRuns s = true := (startRuns_iff s).2 ⟨hn, hpc.1 hp⟩
    rw [e, hr]
    rfl
  · have hr : startRuns s = false := (startRuns_eq_false_iff s).2 (hstop.imp_right fun hp => by rw [hpc] at hp; omega)
    rw [e, hr]
    rfl

@[simp] theorem passStart_busy (s : State) : (passStart s).busy = startRuns s := by rw [passStart_eq]
@[simp] theorem passStart_done (s : State) : (passStart s).done = !startRuns s := by rw [passStart_eq]
@[simp] theorem passStart_items (s : State) : (passStart s).items = [] := by rw [passStart_eq]; rfl
@[simp] theorem passStart_n (s : State) : (passStart s).n = computeN s.sampleRate.toNat s.baudRate.toNat := by
  rw [passStart_eq]; rfl
@[simp] theorem passStart_total (s : State) : (passStart s).total = s.length := by rw [passStart_eq]; rfl
@[simp] theorem passStart_pc (s : State) :
    (passStart s).pc = startOffsetOf s.startOffsetValid s.startOffset s.length := by rw [passStart_eq]; rfl
@[simp] theorem passStart_fsm (s : State) : (passStart s).fsm = .idle := by rw [passStart_eq]; rfl
@[simp] theorem passStart_pend (s : State) : (passStart s).pend = none := by rw [passStart_eq]; rfl
@[simp] theorem passStart_src (s : State) : (passStart s).src = s.srcSel := by rw [passStart_eq]; rfl
@[simp] theorem passStart_script (s : State) : (passStart s).script = s.script := by rw [passStart_eq]; rfl

/-- A start with N at least MIN_N and a sample to scan leaves the pass running. -/
theorem passStart_running {s : State} (h : 3 ≤ (passStart s).n ∧ 0 < s.length) :
    (passStart s).busy = true ∧ (passStart s).done = false := by
  rw [passStart_n] at h
  simp [(startRuns_iff s).2 h]

/-- A start below MIN_N or on an empty source has ended (R82, R84). -/
theorem passStart_ended {s : State} (h : (passStart s).n < 3 ∨ s.length = 0) :
    (passStart s).busy = false ∧ (passStart s).done = true := by
  rw [passStart_n] at h
  simp [(startRuns_eq_false_iff s).2 h]

/-- A start leaves the configuration. -/
theorem passStart_sameConfig (s : State) : SameConfig s (passStart s) := by
  rw [passStart_eq]; exact ⟨rfl, rfl, rfl, rfl, rfl, rfl⟩

/-- A start leaves the samples. -/
theorem passStart_sameSamples (s : State) : SameSamples s (passStart s) := by
  rw [passStart_eq]; exact ⟨fun _ => rfl, fun _ => rfl⟩

/-- A start leaves the encoder. -/
theorem passStart_sameEncoder (s : State) : SameEncoder s (passStart s) := by
  rw [passStart_eq]; exact ⟨rfl, rfl, rfl⟩

/-- A write of 1 to CTRL.START with no pass running starts a pass (R25). -/
theorem step_start {s : State} {v : Nat} {rest : List Move} (hs : s.script = .host (.write .ctrl v) :: rest)
    (hv : v.testBit 0 = true) (hb : s.busy = false) : step s = .next (passStart (setScript rest s)) := by
  have hgo : (v.testBit 0 && !(setScript rest s).busy) = true := by rw [hv, setScript_busy, hb]; rfl
  rw [step_host hs]
  exact congrArg Host.Outcome.next (if_pos hgo)

/-- Settles O29: the start's state is `passStart`, whose fields are read off one by one. -/
theorem passStartSetsTheSession : Obligations.PassStartSetsTheSession := by
  unfold Obligations.PassStartSetsTheSession
  intro s v rest hs hv hb
  exact ⟨passStart (setScript rest s), step_start hs hv hb, passStart_n _, passStart_total _,
    fun _ => ⟨passStart_fsm _, (passStart_pc _).trans (startOffsetOf_eq _ _ _)⟩, passStart_pend _, passStart_src _,
    passStart_items _, passStart_running, passStart_ended, passStart_sameConfig _, passStart_sameSamples _,
    passStart_sameEncoder _, passStart_script _⟩

/-! ## Reset -/

/-- After reset no agent has anything to do: the script is empty, no pass runs, the encoder has no frame (R35). -/
theorem step_reset : step State.reset = .next State.reset := by
  have hidle : encoderFetch State.reset = none := rfl
  rw [step_resting rfl rfl, encoderStep, hidle]

/-- Settles O25: the register values are those of `State.reset`, and nothing runs by `step_reset`. -/
theorem resetValues : Obligations.ResetValues :=
  ⟨rfl, rfl, rfl, rfl, rfl, rfl, rfl, rfl, step_reset⟩

end Sys2Proof.Proofs
end

section
/-! The dispatch key, its table and the packed item (R64 to R68): a key is its fields, the row a key takes is the one
`List.find?` finds, and each field of a packed item is one digit of it. -/

namespace Sys2Proof.Proofs

open Sys2Proof Sys2Proof.Machine

/-! ## The fields of a key (R63, R64) -/

theorem getLsbD_packKey (c : BitVec 3) (x : Cls) (p : Bool) (i : Nat) :
    (packKey c x p).getLsbD i = if i < 1 then (BitVec.ofBool p).getLsbD i
      else if i - 1 < 4 then x.getLsbD (i - 1) else c.getLsbD (i - 1 - 4) := by
  rw [packKey, BitVec.getLsbD_append, BitVec.getLsbD_append]

theorem getLsbD_packCls (v h t g : Bool) (i : Nat) :
    (packCls v h t g).getLsbD i = if i < 1 then (BitVec.ofBool g).getLsbD i
      else if i - 1 < 1 then (BitVec.ofBool t).getLsbD (i - 1)
      else if i - 1 - 1 < 1 then (BitVec.ofBool h).getLsbD (i - 1 - 1)
      else (BitVec.ofBool v).getLsbD (i - 1 - 1 - 1) := by
  rw [packCls, BitVec.getLsbD_append, BitVec.getLsbD_append, BitVec.getLsbD_append]

@[simp] theorem keyState_packKey (c : BitVec 3) (x : Cls) (p : Bool) : keyState (packKey c x p) = c := by
  refine BitVec.eq_of_getLsbD_eq fun i hi => ?_
  have hp : ¬ 5 + i < 1 := by omega
  have hx : ¬ 5 + i - 1 < 4 := by omega
  have hc : 5 + i - 1 - 4 = i := by omega
  rw [keyState, BitVec.getLsbD_extractLsb', getLsbD_packKey, if_neg hp, if_neg hx, hc, decide_eq_true hi, Bool.true_and]

@[simp] theorem keyV_packKey (c : BitVec 3) (v h t g p : Bool) : keyV (packKey c (packCls v h t g) p) = v := by
  rw [keyV, getLsbD_packKey, getLsbD_packCls]; simp

@[simp] theorem keyH_packKey (c : BitVec 3) (v h t g p : Bool) : keyH (packKey c (packCls v h t g) p) = h := by
  rw [keyH, getLsbD_packKey, getLsbD_packCls]; simp

@[simp] theorem keyT_packKey (c : BitVec 3) (v h t g p : Bool) : keyT (packKey c (packCls v h t g) p) = t := by
  rw [keyT, getLsbD_packKey, getLsbD_packCls]; simp

@[simp] theorem keyG_packKey (c : BitVec 3) (v h t g p : Bool) : keyG (packKey c (packCls v h t g) p) = g := by
  rw [keyG, getLsbD_packKey, getLsbD_packCls]; simp

@[simp] theorem keyP_packKey (c : BitVec 3) (x : Cls) (p : Bool) : keyP (packKey c x p) = p := by
  rw [keyP, getLsbD_packKey]; simp

/-- A key is the packing of its fields: there are no other bits. -/
theorem packKey_fields (k : Key) :
    packKey (keyState k) (packCls (keyV k) (keyH k) (keyT k) (keyG k)) (keyP k) = k := by
  revert k; decide

theorem code_ofCode {c : BitVec 3} (h : c.toNat ≤ 4) : (FsmState.ofCode c).code = c := by
  revert c; decide

/-- Settles O7: each field of the packed key is the field it was packed from, and the predicates are those of R121 to
R123. -/
theorem keyLayout : Obligations.KeyLayout := by
  unfold Obligations.KeyLayout
  intro s r
  have hp : keyP (keyOf s r) = decide (s.pend = some r.level) := (keyP_packKey ..).trans (pendMatches_eq ..)
  refine ⟨keyState_packKey .., keyV_packKey .., ?_, ?_, ?_, ?_, ?_⟩
  · exact (Bool.eq_iff_iff.1 (keyH_packKey ..)).trans (isHalfBit_iff ..)
  · exact (Bool.eq_iff_iff.1 (keyT_packKey ..)).trans (isSubTriple_iff ..)
  · exact (Bool.eq_iff_iff.1 (keyG_packKey ..)).trans (isLong_iff ..)
  · exact (Bool.eq_iff_iff.1 hp).trans decide_eq_true_iff
  · intro hnone
    exact hp.trans (by simp [hnone])

/-! ## The row a key takes (R65) -/

theorem takes_iff {r : Row} {k : Key} : r.takes k = true ↔ k &&& r.mask = r.pattern := beq_iff_eq

theorem firstRow_eq_find? (k : Key) (rows : List Row) : firstRow k rows = rows.find? (·.takes k) := by
  induction rows with
  | nil => rfl
  | cons r rs ih =>
    rw [firstRow, ih, List.find?_cons]
    cases r.takes k <;> rfl

theorem firstRow_eq_some_iff {k : Key} {rows : List Row} {row : Row} :
    firstRow k rows = some row ↔ ∃ before after, rows = before ++ row :: after ∧ k &&& row.mask = row.pattern ∧
      ∀ r ∈ before, k &&& r.mask ≠ r.pattern := by
  rw [firstRow_eq_find?, List.find?_eq_some_iff_append]
  simp only [Bool.not_eq_true', ← Bool.not_eq_true, takes_iff]
  constructor
  · rintro ⟨hrow, before, after, hrows, hbefore⟩
    exact ⟨before, after, hrows, hrow, hbefore⟩
  · rintro ⟨before, after, hrows, hrow, hbefore⟩
    exact ⟨hrow, before, after, hrows, hbefore⟩

theorem decodeKey_eq_instr_iff {k : Key} {i : Instr} :
    decodeKey k = .instr i ↔ ∃ row, firstRow k keyTable = some row ∧ row.build k = i := by
  unfold decodeKey
  cases firstRow k keyTable <;> simp

theorem build_mnemonic {r : Row} (hr : r ∈ keyTable) (k : Key) : (r.build k).mnemonic = r.mnemonic := by
  revert r
  simp [keyTable, startRows, dataRows, Instr.mnemonic]

/-- Every key whose state field is the code of a state selects an instruction: it is the packing of its fields. -/
theorem decodeKey_of_stateCode {k : Key} (h : (keyState k).toNat ≤ 4) : ∃ i, decodeKey k = .instr i := by
  rw [← packKey_fields k, ← code_ofCode h]
  exact ⟨_, decodeKey_packKey ..⟩

/-- Settles O3: the choice of a row is `firstRow_eq_some_iff`, and totality is `decodeKey_of_stateCode`. -/
theorem keyTakesLowestMatchingRow : Obligations.KeyTakesLowestMatchingRow := by
  unfold Obligations.KeyTakesLowestMatchingRow
  refine ⟨rfl, fun k i => ?_, fun r hr k _ => build_mnemonic hr k, fun k => decodeKey_of_stateCode⟩
  rw [decodeKey_eq_instr_iff]
  simp only [firstRow_eq_some_iff]
  constructor
  · rintro ⟨row, ⟨before, after, htable, hrow, hbefore⟩, hi⟩
    exact ⟨before, row, after, htable, hrow, hbefore, hi⟩
  · rintro ⟨before, row, after, htable, hrow, hbefore, hi⟩
    exact ⟨row, ⟨before, after, htable, hrow, hbefore⟩, hi⟩

/-! ## The codes no key may carry (R66) -/

/-- Every row fixes the whole state field of the keys it takes. -/
theorem keyState_eq_of_takes {r : Row} (hr : r ∈ keyTable) {k : Key} (hk : k &&& r.mask = r.pattern) :
    keyState k = keyState r.pattern := by
  have hmask : ∀ r ∈ keyTable, keyState r.mask = BitVec.allOnes 3 := by decide
  calc keyState k = keyState k &&& keyState r.mask := by rw [hmask r hr, BitVec.and_allOnes]
    _ = keyState (k &&& r.mask) := BitVec.extractLsb'_and.symm
    _ = keyState r.pattern := by rw [hk]

/-- No row has the state field of a pseudo-state or of the reserved code. -/
theorem decodeKey_of_noStateCode {k : Key} (h : 4 < (keyState k).toNat) : decodeKey k = .reject (rejectState k) := by
  have hpattern : ∀ r ∈ keyTable, (keyState r.pattern).toNat ≤ 4 := by decide
  have hnone : firstRow k keyTable = none := by
    rw [firstRow_eq_find?, List.find?_eq_none]
    intro r hr hk
    have := hpattern r hr
    rw [← keyState_eq_of_takes hr (takes_iff.1 hk)] at this
    omega
  rw [decodeKey, hnone]

/-- Settles O4: the three codes above 4 are rejected by `decodeKey_of_noStateCode`, each under its name in R66. -/
theorem stateCodesAndPseudoStates : Obligations.StateCodesAndPseudoStates := by
  unfold Obligations.StateCodesAndPseudoStates
  refine ⟨rfl, rfl, rfl, rfl, rfl, fun k h => ?_, fun k h => ?_, fun k h => ?_⟩
  all_goals
    rw [decodeKey_of_noStateCode (by rw [h]; decide), rejectState, h]
    rfl

/-! ## The packed item (R67, R68) -/

@[simp] theorem kind_ofCode_code (k : Kind) : Kind.ofCode k.code = some k := by cases k <;> rfl

theorem kind_code_lt (k : Kind) : k.code < 4 := by cases k <;> decide

/-- The lowest digit of a number in mixed radix, and what stands above it. -/
theorem add_mul_mod_div {a m : Nat} (b : Nat) (h : a < m) : (a + m * b) % m = a ∧ (a + m * b) / m = b := by
  rw [Nat.add_mul_mod_self_left, Nat.add_mul_div_left _ _ (by omega), Nat.mod_eq_of_lt h, Nat.div_eq_of_lt h]
  exact ⟨rfl, Nat.zero_add b⟩

/-! A field of `n` bits keeps the low bits of its number (D5, D6). -/

theorem field_mod (x n b : Nat) : (x % 2 ^ n + 2 ^ n * b) % 2 ^ n = x % 2 ^ n :=
  (add_mul_mod_div b (Nat.mod_lt x (Nat.two_pow_pos n))).1

theorem field_div (x n b : Nat) : (x % 2 ^ n + 2 ^ n * b) / 2 ^ n = b :=
  (add_mul_mod_div b (Nat.mod_lt x (Nat.two_pow_pos n))).2

section Fields

variable (w : Widths) (f : Fill) (it : Item)

/-- The number that START_INDEX and the fields above it make up (R68). -/
def itemNumbers : Nat :=
  it.startIndex % 2 ^ w.index + 2 ^ w.index * (it.stopIndex.getD f.stop % 2 ^ w.index +
    2 ^ w.index * (it.bitCount.getD f.bitCount % 2 ^ w.bitCount +
      2 ^ w.bitCount * (it.value.getD f.value % 2 ^ w.value)))

@[simp] theorem packItem_mod_four : packItem w f it % 4 = it.kind.code :=
  (add_mul_mod_div _ (kind_code_lt _)).1

theorem packItem_div_four : packItem w f it / 4 = it.stopIndex.isSome.toNat + 2 * itemNumbers w f it :=
  (add_mul_mod_div _ (kind_code_lt _)).2

@[simp] theorem packItem_stopValid : packItem w f it / 4 % 2 = it.stopIndex.isSome.toNat := by
  rw [packItem_div_four, (add_mul_mod_div _ (Bool.toNat_lt _)).1]

theorem packItem_div_eight : packItem w f it / 8 = itemNumbers w f it := by
  rw [show 8 = 4 * 2 from rfl, ← Nat.div_div_eq_div_mul, packItem_div_four, (add_mul_mod_div _ (Bool.toNat_lt _)).2]

@[simp] theorem packItem_startIndex : packItem w f it / 8 % 2 ^ w.index = it.startIndex % 2 ^ w.index := by
  rw [packItem_div_eight, itemNumbers, field_mod]

@[simp] theorem packItem_stopIndex :
    packItem w f it / 8 / 2 ^ w.index % 2 ^ w.index = it.stopIndex.getD f.stop % 2 ^ w.index := by
  rw [packItem_div_eight, itemNumbers, field_div, field_mod]

@[simp] theorem packItem_bitCount : packItem w f it / 8 / (2 ^ w.index * 2 ^ w.index) % 2 ^ w.bitCount =
    it.bitCount.getD f.bitCount % 2 ^ w.bitCount := by
  rw [packItem_div_eight, itemNumbers, ← Nat.div_div_eq_div_mul, field_div, field_div, field_mod]

@[simp] theorem packItem_value :
    packItem w f it / 8 / (2 ^ w.index * 2 ^ w.index * 2 ^ w.bitCount) % 2 ^ w.value =
      it.value.getD f.value % 2 ^ w.value := by
  rw [packItem_div_eight, itemNumbers, ← Nat.div_div_eq_div_mul, ← Nat.div_div_eq_div_mul,
    field_div, field_div, field_div, Nat.mod_mod]

end Fields

/-- Reading back an item whose numbers fit, if a value and a bit count stand in exactly the Data items. -/
theorem unpackItem_packItem {w : Widths} {f : Fill} {it : Item} (hfit : ItemFits w it)
    (hkind : it.kind = .data ∧ it.value.isSome = true ∧ it.bitCount.isSome = true ∨
      it.kind ≠ .data ∧ it.value = none ∧ it.bitCount = none) :
    unpackItem w (packItem w f it) = some it := by
  obtain ⟨kind, value, count, start, stop⟩ := it
  obtain ⟨hstart, hstop, hcount, hvalue⟩ := hfit
  have hstopField : (if stop.isSome.toNat = 1 then some (stop.getD f.stop % 2 ^ w.index) else none) = stop := by
    cases stop with
    | none => rfl
    | some e => simp [Nat.mod_eq_of_lt (hstop e rfl)]
  simp only [unpackItem, packItem_mod_four, kind_ofCode_code, packItem_stopValid, packItem_startIndex,
    packItem_stopIndex, packItem_bitCount, packItem_value, Nat.mod_eq_of_lt hstart, hstopField]
  rcases hkind with ⟨hdata, hv, hc⟩ | ⟨hother, hv, hc⟩
  · obtain ⟨v, rfl⟩ := Option.isSome_iff_exists.1 hv
    obtain ⟨c, rfl⟩ := Option.isSome_iff_exists.1 hc
    rw [if_pos hdata, if_pos hdata, Option.getD_some, Option.getD_some, Nat.mod_eq_of_lt (hvalue v rfl),
      Nat.mod_eq_of_lt (hcount c rfl)]
  · obtain rfl : value = none := hv
    obtain rfl : count = none := hc
    rw [if_neg hother, if_neg hother]

/-- Settles O8: each field is a digit of the packed item, and reading back is `unpackItem_packItem`. -/
theorem itemLayout : Obligations.ItemLayout := by
  unfold Obligations.ItemLayout
  refine ⟨⟨rfl, rfl, rfl, rfl⟩, fun s => ⟨rfl, rfl, rfl, rfl⟩, fun w f it hfit => ?_,
    fun w f it hfit hkind => unpackItem_packItem hfit hkind⟩
  obtain ⟨hstart, hstop, hcount, hvalue⟩ := hfit
  have hplace (n : Nat) : packItem w f it / 2 ^ (3 + n) = packItem w f it / 8 / 2 ^ n := by
    rw [pow_add, Nat.div_div_eq_div_mul]; rfl
  have htwo : 2 ^ (2 * w.index) = 2 ^ w.index * 2 ^ w.index := by rw [two_mul, pow_add]
  refine ⟨packItem_mod_four .., packItem_stopValid .., ?_, fun e he => ?_, fun c hc => ?_, fun v hv => ?_⟩
  · exact (packItem_startIndex ..).trans (Nat.mod_eq_of_lt hstart)
  · rw [hplace, packItem_stopIndex, he]
    exact Nat.mod_eq_of_lt (hstop e he)
  · rw [hplace, htwo, packItem_bitCount, hc]
    exact Nat.mod_eq_of_lt (hcount c hc)
  · rw [Nat.add_assoc, hplace, pow_add, htwo, packItem_value, hv]
    exact Nat.mod_eq_of_lt (hvalue v hv)

end Sys2Proof.Proofs
end

section
/-! The decode pass as a whole (R81, R82, R84, R90): starts that end at once, and two passes over the same levels running in
step. Two such passes agree on every register but those that no transition out of the present state reads before it writes
them: `fsi` in Idle, the accumulator in Idle and StartFirstHalf, which hold no value at PASS.START (R36). -/

namespace Sys2Proof.Proofs

open Sys2Proof Sys2Proof.Machine

/-! ## Starts that end at once -/

/-- Settles O27: `computeN` is the quotient of the naturals, and `passStart_n` says that a start latches it. -/
theorem computeNIsTheFloor : Obligations.ComputeNIsTheFloor := by
  unfold Obligations.ComputeNIsTheFloor
  refine ⟨fun sr => if_pos rfl, fun sr br hbr => ?_, passStart_n⟩
  rw [computeN, if_neg hbr.ne']
  exact ⟨Nat.div_mul_le_self sr br, (Nat.div_lt_iff_lt_mul hbr).1 (Nat.lt_succ_self _)⟩

/-- Settles O30: the start's state is `passStart`, which has ended when N is below 3. -/
theorem passAbortsBelowMinN : Obligations.PassAbortsBelowMinN := by
  unfold Obligations.PassAbortsBelowMinN
  intro s v rest hs hv hb hn
  obtain ⟨hbusy, hdone⟩ := passStart_ended (s := setScript rest s) (.inl ((passStart_n _).trans_lt hn))
  exact ⟨_, step_start hs hv hb, passStart_items _, hbusy, hdone, passStart_sameConfig _, passStart_sameSamples _,
    passStart_script _⟩

/-- Settles O31: the start's state is `passStart`, which has ended when there is no sample to scan. -/
theorem emptySourceGivesNoItems : Obligations.EmptySourceGivesNoItems := by
  unfold Obligations.EmptySourceGivesNoItems
  intro s v rest hs hv hb hlen
  obtain ⟨hbusy, hdone⟩ := passStart_ended (s := setScript rest s) (.inr hlen)
  exact ⟨_, step_start hs hv hb, passStart_items _, hbusy, hdone, passStart_script _⟩

/-! ## The run at the cursor depends on the levels left to scan -/

theorem sameLevelCount_congr {s t : State} (v : Level) {j fuel : Nat}
    (h : ∀ i, j ≤ i → i < j + fuel → levelAt t i = levelAt s i) :
    sameLevelCount t v j fuel = sameLevelCount s v j fuel := by
  induction fuel generalizing j with
  | zero => rfl
  | succ fuel ih =>
    rw [sameLevelCount, sameLevelCount, h j (by omega) (by omega),
      ih fun i hji hi => h i (by omega) (by omega)]

theorem nextRun_congr {s t : State} (hp : s.pc < s.total) (hpc : t.pc = s.pc) (htotal : t.total = s.total)
    (h : ∀ i, s.pc ≤ i → i < s.total → levelAt t i = levelAt s i) : nextRun t = nextRun s := by
  simp only [nextRun, hpc, htotal, h s.pc le_rfl hp]
  rw [sameLevelCount_congr _ fun i hji hi => h i (by omega) (by omega)]

/-! ## Two passes in step -/

/-- Two passes with no moves to come that agree on everything the rest of the pass depends on; `F` says whether `fsi` is
known to agree, `A` whether the accumulator is. -/
structure AgreeOn (F A : Prop) (a b : State) : Prop where
  scripts : a.script = [] ∧ b.script = []
  busy : b.busy = a.busy
  done : b.done = a.done
  status : a.done = !a.busy
  items : b.items = a.items
  n : b.n = a.n
  total : b.total = a.total
  pc : b.pc = a.pc
  fsm : b.fsm = a.fsm
  pend : b.pend = a.pend
  levels : ∀ i, i < a.total → levelAt b i = levelAt a i
  fsi : F → b.fsi = a.fsi
  value : A → b.value = a.value
  bitCount : A → b.bitCount = a.bitCount

/-- Two passes in step: `fsi` agrees once the frame machine is armed (R130), the accumulator once a start bit has begun
(R132). -/
def InStep (a b : State) : Prop := AgreeOn (a.fsm ≠ .idle) (a.fsm ≠ .idle ∧ a.fsm ≠ .startFirstHalf) a b

namespace AgreeOn

variable {F A F' A' : Prop} {a b : State}

theorem mono (h : AgreeOn F A a b) (hF : F' → F) (hA : A' → A) : AgreeOn F' A' a b :=
  { h with fsi := h.fsi ∘ hF, value := h.value ∘ hA, bitCount := h.bitCount ∘ hA }

/-! In step, by the state the first pass is in. -/

theorem inStep_idle (h : AgreeOn F A a b) (hf : a.fsm = .idle) : InStep a b :=
  h.mono (absurd hf) (absurd hf ·.1)

theorem inStep_armed (h : AgreeOn True A a b) (hf : a.fsm = .startFirstHalf) : InStep a b :=
  h.mono (fun _ => trivial) (absurd hf ·.2)

theorem inStep_frame (h : AgreeOn True True a b) : InStep a b := h.mono (fun _ => trivial) (fun _ => trivial)

/-! What each operation of the pass keeps, and which registers it makes agree. -/

theorem goto (h : AgreeOn F A a b) (f : FsmState) : AgreeOn F A (goto f a) (goto f b) := { h with fsm := rfl }

theorem holdHalf (h : AgreeOn F A a b) (v : Level) : AgreeOn F A (holdHalf v a) (holdHalf v b) := { h with pend := rfl }

theorem arm (h : AgreeOn F A a b) : AgreeOn True A (arm a) (arm b) := { h with fsm := rfl, fsi := fun _ => h.pc }

theorem resetAccumulator (h : AgreeOn F A a b) : AgreeOn F True (resetAccumulator a) (resetAccumulator b) :=
  { h with value := fun _ => rfl, bitCount := fun _ => rfl }

theorem appendBit (h : AgreeOn F A a b) (v : Level) : AgreeOn F A (appendBit v a) (appendBit v b) :=
  { h with
    value := fun hA => by simp [h.value hA]
    bitCount := fun hA => by simp [h.bitCount hA] }

theorem emit {x y : Item} (h : AgreeOn F A a b) (hxy : y = x) : AgreeOn F A (emit x a) (emit y b) :=
  { h with items := by simp [h.items, hxy] }

theorem dataItem_eq (h : AgreeOn True True a b) : dataItem b = dataItem a := by
  simp only [dataItem, h.value trivial, h.bitCount trivial, h.fsi trivial, h.n, h.total]

theorem errorItem_eq (h : AgreeOn True A a b) : errorItem b = errorItem a := by
  simp only [errorItem, h.fsi trivial, h.pc]

theorem stopFrame (h : AgreeOn True True a b) : AgreeOn True True (stopFrame a) (stopFrame b) :=
  (h.emit h.dataItem_eq).arm

theorem raiseFrameError (h : AgreeOn True A a b) : AgreeOn True A (raiseFrameError a) (raiseFrameError b) :=
  (h.emit h.errorItem_eq).goto .idle

theorem nextRun_eq (h : AgreeOn F A a b) (hp : a.pc < a.total) : nextRun b = nextRun a :=
  nextRun_congr hp h.pc h.total fun i _ hi => h.levels i hi

theorem scanned (h : AgreeOn F A a b) (hp : a.pc < a.total) : AgreeOn F A (scanned a) (scanned b) :=
  { h with pc := congrArg Run.after (h.nextRun_eq hp) }

theorem keyOf_eq (h : AgreeOn F A a b) (r : Run) : keyOf b r = keyOf a r := by
  simp only [keyOf, pendMatches, h.fsm, h.n, h.pend]

theorem endPass (h : AgreeOn F A a b) : AgreeOn F A (endPass a) (endPass b) :=
  { h with busy := rfl, done := rfl, status := rfl }

theorem finishPass (h : AgreeOn F A a b) : AgreeOn F A (finishPass a) (finishPass b) := by
  by_cases hp : a.pc < a.total
  · rwa [finishPass_running hp, finishPass_running (by rwa [h.pc, h.total])]
  · rw [finishPass_ended hp, finishPass_ended (by rwa [h.pc, h.total])]
    exact h.endPass

end AgreeOn

@[simp] theorem finishPass_fsm (s : State) : (finishPass s).fsm = s.fsm := by
  unfold finishPass
  split <;> rfl

namespace InStep

variable {a b : State}

theorem finishPass (h : InStep a b) : InStep (finishPass a) (finishPass b) := by
  rw [InStep, finishPass_fsm]
  exact AgreeOn.finishPass h

/-- The instruction that a run selects keeps two passes in step: each transition reads only registers that agree in the state
it is taken in. -/
theorem exec_chosen (h : InStep a b) (v hb st lg p : Bool) : ∃ a' b', exec (chosen a.fsm v hb st lg p) a = .next a' ∧
    exec (chosen a.fsm v hb st lg p) b = .next b' ∧ InStep a' b' := by
  cases hf : a.fsm with
  | idle =>
    rw [chosen]
    cases v && lg
    · exact ⟨_, _, rfl, rfl, h⟩
    · exact ⟨_, _, rfl, rfl, (AgreeOn.arm h).inStep_armed rfl⟩
  | startFirstHalf =>
    have harmed : AgreeOn True False a b := h.mono (by simp [hf]) False.elim
    rw [chosen]
    cases !v && hb && st
    · exact ⟨_, _, rfl, rfl, (harmed.goto .idle).inStep_idle rfl⟩
    · exact ⟨_, _, rfl, rfl, (harmed.resetAccumulator.goto .startSecondHalf).inStep_frame⟩
  | startSecondHalf =>
    have hframe : AgreeOn True True a b := h.mono (by simp [hf]) (by simp [hf])
    rw [chosen]
    cases v && hb && !lg
    · exact ⟨_, _, rfl, rfl, (hframe.goto .idle).inStep_frame⟩
    cases st
    · exact ⟨_, _, rfl, rfl, ((hframe.holdHalf true).goto .dataSecondHalf).inStep_frame⟩
    · exact ⟨_, _, rfl, rfl, (hframe.goto .dataFirstHalf).inStep_frame⟩
  | dataFirstHalf =>
    have hframe : AgreeOn True True a b := h.mono (by simp [hf]) (by simp [hf])
    rw [chosen]
    cases !hb
    · cases lg
      · exact ⟨_, _, rfl, rfl, ((hframe.holdHalf v).goto .dataSecondHalf).inStep_frame⟩
      · exact ⟨_, _, rfl, rfl, hframe.stopFrame.inStep_frame⟩
    · exact ⟨_, _, rfl, rfl, hframe.raiseFrameError.inStep_frame⟩
  | dataSecondHalf =>
    have hframe : AgreeOn True True a b := h.mono (by simp [hf]) (by simp [hf])
    rw [chosen]
    cases !hb || p
    · cases lg
      · cases st
        · exact ⟨_, _, rfl, rfl, ((hframe.appendBit v).holdHalf v).inStep_frame⟩
        · exact ⟨_, _, rfl, rfl, ((hframe.appendBit v).goto .dataFirstHalf).inStep_frame⟩
      · exact ⟨_, _, rfl, rfl, (hframe.appendBit v).stopFrame.inStep_frame⟩
    · exact ⟨_, _, rfl, rfl, hframe.raiseFrameError.inStep_frame⟩

/-- One step of the pass keeps two running passes in step: both scan the same run, so both take the same transition. -/
theorem step_running (h : InStep a b) (hbusy : a.busy = true) :
    ∃ a' b', step a = .next a' ∧ step b = .next b' ∧ InStep a' b' := by
  have hbusy' : b.busy = true := h.busy.trans hbusy
  rw [Machine.step_running h.scripts.1 hbusy, Machine.step_running h.scripts.2 hbusy', decoderStep, decoderStep,
    if_pos hbusy, if_pos hbusy', h.pc, h.total]
  by_cases hp : a.pc < a.total
  · have hscan : InStep (scanned a) (scanned b) := AgreeOn.scanned h hp
    rw [if_pos hp, if_pos hp, h.nextRun_eq hp, h.keyOf_eq, decodeKey_keyOf]
    obtain ⟨a', b', ha, hb, hab⟩ := hscan.exec_chosen _ _ _ _ _
    rw [scanned_fsm] at ha hb
    exact ⟨_, _, congrArg retire ha, congrArg retire hb, hab.finishPass⟩
  · rw [if_neg hp, if_neg hp]
    exact ⟨_, _, rfl, rfl, AgreeOn.endPass h⟩

end InStep

/-! ## After the pass -/

/-- A step of the encoder leaves the script, STATUS and the store (R160). -/
theorem encoderStep_frame {s t : State} (h : encoderStep exec s = .next t) :
    t.script = s.script ∧ t.busy = s.busy ∧ t.items = s.items := by
  rw [encoderStep, encoderFetch] at h
  split at h
  next i u hf =>
    split at hf
    all_goals cases hf
    all_goals cases h; exact ⟨rfl, rfl, rfl⟩
  next => cases h; exact ⟨rfl, rfl, rfl⟩

/-- With no pass running and no moves to come the store stays as it is. -/
theorem stepN_resting_items {s t : State} {k : Nat} (hs : s.script = []) (hb : s.busy = false)
    (h : stepN k s = .next t) : t.items = s.items := by
  induction k generalizing s with
  | zero => cases h; rfl
  | succ k ih =>
    rw [stepN, step_resting hs hb] at h
    split at h
    next u hu =>
      obtain ⟨hscript, hbusy, hitems⟩ := encoderStep_frame hu
      exact (ih (hscript.trans hs) (hbusy.trans hb) h).trans hitems
    all_goals cases h

/-- Two passes in step end with the same items, however many steps are taken after their ends. -/
theorem InStep.items_eq {a b t w : State} {k j : Nat} (h : InStep a b) (ht : stepN k a = .next t) (htd : t.done = true)
    (hw : stepN j b = .next w) (hwd : w.done = true) : w.items = t.items := by
  induction k generalizing a b j with
  | zero =>
    cases ht
    have hbusy : t.busy = false := by simpa [h.status] using htd
    exact (stepN_resting_items h.scripts.2 (h.busy.trans hbusy) hw).trans h.items
  | succ k ih =>
    cases hbusy : a.busy with
    | false =>
      rw [stepN_resting_items h.scripts.1 hbusy ht, stepN_resting_items h.scripts.2 (h.busy.trans hbusy) hw, h.items]
    | true =>
      cases j with
      | zero =>
        cases hw
        simp [h.done, h.status, hbusy] at hwd
      | succ j =>
        obtain ⟨a', b', ha, hb, hab⟩ := h.step_running hbusy
        simp only [stepN, ha] at ht
        simp only [stepN, hb] at hw
        exact ih hab ht hw

/-! ## Two starts -/

theorem levelOf_eq_of_sourceLevels_eq {s u : State} (h : sourceLevels u = sourceLevels s) (hlen : u.length = s.length)
    {i : Nat} (hi : i < s.length) : levelOf u u.srcSel i = levelOf s s.srcSel i := by
  rw [sourceLevels, sourceLevels, hlen] at h
  exact List.map_inj_left.1 h i (List.mem_range.2 hi)

theorem passStart_levelAt (s : State) (i : Nat) : levelAt (passStart s) i = levelOf s s.srcSel i := by
  rw [passStart_eq]; rfl

/-- Two starts with the same configuration and levels begin in step: the set-up of R36 writes every register that agrees
in Idle. -/
theorem inStep_passStart {s u : State} (hs : s.script = []) (hu : u.script = []) (hconfig : SameConfig s u)
    (hlevels : sourceLevels u = sourceLevels s) : InStep (passStart s) (passStart u) := by
  obtain ⟨hrate, hbaud, hoff, hvalid, -, hlen⟩ := hconfig
  have hruns : startRuns u = startRuns s := by rw [startRuns, startRuns, hrate, hbaud, hlen]
  have hagree : AgreeOn False False (passStart s) (passStart u) :=
    { scripts := by simp [hs, hu]
      busy := by simp [hruns]
      done := by simp [hruns]
      status := by simp
      items := by simp
      n := by simp [hrate, hbaud]
      total := by simp [hlen]
      pc := by simp [hoff, hvalid, hlen]
      fsm := by simp
      pend := by simp
      levels := fun i hi => by
        rw [passStart_total] at hi
        rw [passStart_levelAt, passStart_levelAt, levelOf_eq_of_sourceLevels_eq hlevels hlen hi]
      fsi := False.elim
      value := False.elim
      bitCount := False.elim }
  exact hagree.inStep_idle (passStart_fsm s)

/-- After the step that starts a pass, `k` steps are `k - 1` steps of the pass. -/
theorem stepN_start {s t : State} {k : Nat} (hs : s.script = [.host (.write .ctrl 1)]) (hb : s.busy = false)
    (hk : 1 ≤ k) (h : stepN k s = .next t) : stepN (k - 1) (passStart (setScript [] s)) = .next t := by
  obtain ⟨k, rfl⟩ := Nat.exists_eq_succ_of_ne_zero (Nat.one_le_iff_ne_zero.1 hk)
  rwa [stepN, step_start hs rfl hb] at h

/-- Settles O50: the two passes begin in step, stay so, and end with the same items. -/
theorem reRunForgetsEarlierPasses : Obligations.ReRunForgetsEarlierPasses := by
  unfold Obligations.ReRunForgetsEarlierPasses
  intro s u t w k j hs hu hsb hub hconfig hlevels hk hj ht htd hw hwd
  have hstart : InStep (passStart (setScript [] s)) (passStart (setScript [] u)) :=
    inStep_passStart rfl rfl hconfig hlevels
  exact hstart.items_eq (stepN_start hs hsb hk ht) htd (stepN_start hu hub hj hw) hwd

end Sys2Proof.Proofs
end

section
/-! The run at the cursor (R111): the sample at the cursor and those `sameLevelCount` counts after it, stated as bounds and
levels of `nextRun`. -/

namespace Sys2Proof.Proofs

open Sys2Proof Sys2Proof.Machine

/-! ## The run at the cursor is the maximal one -/

theorem nextRun_len_eq (s : State) :
    (nextRun s).len = 1 + sameLevelCount s (levelAt s s.pc) (s.pc + 1) (s.total - (s.pc + 1)) := rfl

/-- The run stays inside the buffer: the scan counts no further than `total`. -/
theorem nextRun_end_le_total {s : State} (h : s.pc < s.total) : s.pc + (nextRun s).len ≤ s.total := by
  have hcount := sameLevelCount_le s (levelAt s s.pc) (s.pc + 1) (s.total - (s.pc + 1))
  rw [nextRun_len_eq]
  omega

/-- Every sample of the run has the level at the cursor: the first by definition, the others because they were counted. -/
theorem levelAt_of_mem_nextRun {s : State} {i : Nat} (hfrom : s.pc ≤ i) (hto : i < s.pc + (nextRun s).len) :
    levelAt s i = levelAt s s.pc := by
  rcases hfrom.eq_or_lt with rfl | hlt
  · rfl
  · obtain ⟨d, rfl⟩ : ∃ d, i = s.pc + 1 + d := Nat.exists_eq_add_of_le hlt
    have hcounted : d < sameLevelCount s (levelAt s s.pc) (s.pc + 1) (s.total - (s.pc + 1)) := by
      rw [nextRun_len_eq] at hto
      omega
    exact levelAt_of_lt_sameLevelCount d hcounted

/-- A run that ends before `total` ends at a sample of the other level. -/
theorem levelAt_end_nextRun_ne {s : State} (h : s.pc + (nextRun s).len < s.total) :
    levelAt s (s.pc + (nextRun s).len) ≠ levelAt s s.pc := by
  rw [nextRun_len_eq, ← Nat.add_assoc] at h ⊢
  exact levelAt_sameLevelCount (by omega)

/-- Settles O11: the count of R111 is bounded by `total`, counts samples of one level only, and stops at the other level;
the scan is the update of `pc` by definition. -/
theorem scannerYieldsMaximalRun : Obligations.ScannerYieldsMaximalRun := by
  unfold Obligations.ScannerYieldsMaximalRun
  intro s hp
  exact ⟨nextRun_offset s, nextRun_level s, nextRun_len_pos s, nextRun_end_le_total hp,
    fun _ => levelAt_of_mem_nextRun, levelAt_end_nextRun_ne, rfl⟩

end Sys2Proof.Proofs
end

section
/-! The bit-time classifier (R121 to R123): each predicate is the inequality its rule gives. -/

namespace Sys2Proof.Proofs

open Sys2Proof Sys2Proof.Machine

/-- Settles O9: one lemma of the classifier for each of R121, R122 and R123. -/
theorem classifierPredicates : Obligations.ClassifierPredicates := by
  unfold Obligations.ClassifierPredicates
  intro len n
  exact ⟨isLong_iff len n, isHalfBit_iff len n, isSubTriple_iff len n⟩

end Sys2Proof.Proofs
end

section
/-! The transitions of the frame decoder (R130 to R144, R176). Which one a run selects is stated once for each state, as a
choice on the inequalities of R121 to R123; each choice has a clause for every run. What a transition does is its meaning
with the named operations unfolded. -/

namespace Sys2Proof.Proofs

open Sys2Proof Sys2Proof.Machine

/-! ## The transition a run selects, state by state -/

theorem isHalfBit_eq_false_iff (len n : Nat) : isHalfBit len n = false ↔ 2 * len ≤ n := by
  rw [isHalfBit_eq, decide_eq_false_iff_not, not_lt]

theorem isLong_eq_false_iff (len n : Nat) : isLong len n = false ↔ len < 3 * n := by
  rw [isLong_eq, decide_eq_false_iff_not, not_le]

theorem pendMatches_iff (s : State) (v : Level) : pendMatches s v = true ↔ s.pend = some v := by
  rw [pendMatches_eq, decide_eq_true_iff]

section Selection

variable {s : State} (r : Run)

theorem decodeKey_keyOf_idle (hf : s.fsm = .idle) : decodeKey (keyOf s r) = .instr
    (if r.level = true ∧ 3 * s.n ≤ r.len then
      .idleArm (isHalfBit r.len s.n) (isSubTriple r.len s.n) (pendMatches s r.level)
    else .idleHold r.level (isHalfBit r.len s.n) (isSubTriple r.len s.n) (isLong r.len s.n) (pendMatches s r.level)) := by
  simp only [decodeKey_keyOf, hf, chosen, Bool.cond_eq_ite, Bool.and_eq_true, isLong_iff]

theorem decodeKey_keyOf_startFirstHalf (hf : s.fsm = .startFirstHalf) : decodeKey (keyOf s r) = .instr
    (if (r.level = false ∧ s.n < 2 * r.len) ∧ 2 * r.len < 3 * s.n then
      .sf1Accept (isLong r.len s.n) (pendMatches s r.level)
    else .sf1Reject r.level (isHalfBit r.len s.n) (isSubTriple r.len s.n) (isLong r.len s.n) (pendMatches s r.level)) := by
  simp only [decodeKey_keyOf, hf, chosen, Bool.cond_eq_ite, Bool.and_eq_true, Bool.not_eq_true', isHalfBit_iff,
    isSubTriple_iff]

theorem decodeKey_keyOf_startSecondHalf (hf : s.fsm = .startSecondHalf) : decodeKey (keyOf s r) = .instr
    (if (r.level = true ∧ s.n < 2 * r.len) ∧ r.len < 3 * s.n then
      if 2 * r.len < 3 * s.n then .ss2Half (pendMatches s r.level) else .ss2Full (pendMatches s r.level)
    else .ss2Reject r.level (isHalfBit r.len s.n) (isSubTriple r.len s.n) (isLong r.len s.n) (pendMatches s r.level)) := by
  simp only [decodeKey_keyOf, hf, chosen, Bool.cond_eq_ite, Bool.and_eq_true, Bool.not_eq_true', isHalfBit_iff,
    isSubTriple_iff, isLong_eq_false_iff]

theorem decodeKey_keyOf_dataFirstHalf (hf : s.fsm = .dataFirstHalf) : decodeKey (keyOf s r) = .instr
    (if 2 * r.len ≤ s.n then
      .df1Short r.level (isSubTriple r.len s.n) (isLong r.len s.n) (pendMatches s r.level)
    else if 3 * s.n ≤ r.len then .df1Stop r.level (isSubTriple r.len s.n) (pendMatches s r.level)
    else .df1Next r.level (isSubTriple r.len s.n) (pendMatches s r.level)) := by
  simp only [decodeKey_keyOf, hf, chosen, Bool.cond_eq_ite, Bool.not_eq_true', isHalfBit_eq_false_iff, isLong_iff]

theorem decodeKey_keyOf_dataSecondHalf (hf : s.fsm = .dataSecondHalf) : decodeKey (keyOf s r) = .instr
    (if 2 * r.len ≤ s.n ∨ s.pend = some r.level then
      .ds2Err r.level (isHalfBit r.len s.n) (isSubTriple r.len s.n) (isLong r.len s.n) (pendMatches s r.level)
    else if 3 * s.n ≤ r.len then .ds2BitStop r.level (isSubTriple r.len s.n)
    else if 2 * r.len < 3 * s.n then .ds2BitHalf r.level else .ds2BitFull r.level) := by
  simp only [decodeKey_keyOf, hf, chosen, Bool.cond_eq_ite, Bool.or_eq_true, Bool.not_eq_true', isHalfBit_eq_false_iff,
    pendMatches_iff, isLong_iff, isSubTriple_iff]

end Selection

/-! ## The transitions of Idle and of the start bit (R130 to R136) -/

/-- Settles O16: the choice of `decodeKey_keyOf_idle`, and the meanings of the two transitions. -/
theorem idleTransitions : Obligations.IdleTransitions := by
  unfold Obligations.IdleTransitions
  refine ⟨fun s r hf hv hlong => ?_, fun s r hf hrest => ?_, fun _ _ _ _ => rfl, fun _ _ _ _ _ _ => rfl⟩
  · rw [decodeKey_keyOf_idle r hf, if_pos ⟨hv, hlong⟩]
    exact ⟨_, _, _, rfl⟩
  · have hnot : ¬ (r.level = true ∧ 3 * s.n ≤ r.len) := fun ⟨hv, hlong⟩ =>
      hrest.elim (Bool.eq_false_iff.1 · hv) hlong.not_gt
    rw [decodeKey_keyOf_idle r hf, if_neg hnot]
    exact ⟨_, _, _, _, _, rfl⟩

/-- Settles O17: the choice of `decodeKey_keyOf_startFirstHalf`, and the meanings of the two transitions. -/
theorem startFirstHalfTransitions : Obligations.StartFirstHalfTransitions := by
  unfold Obligations.StartFirstHalfTransitions
  refine ⟨fun s r hf hv hhalf hsub => ?_, fun s r hf hrest => ?_, fun _ _ _ => rfl, fun _ _ _ _ _ _ => rfl⟩
  · rw [decodeKey_keyOf_startFirstHalf r hf, if_pos ⟨⟨hv, hhalf⟩, hsub⟩]
    exact ⟨_, _, rfl⟩
  · have hnot : ¬ ((r.level = false ∧ s.n < 2 * r.len) ∧ 2 * r.len < 3 * s.n) := fun ⟨⟨hv, hhalf⟩, hsub⟩ =>
      hrest.elim3 (Bool.eq_false_iff.1 hv) hhalf.not_ge hsub.not_ge
    rw [decodeKey_keyOf_startFirstHalf r hf, if_neg hnot]
    exact ⟨_, _, _, _, _, rfl⟩

/-- Settles O18: the choice of `decodeKey_keyOf_startSecondHalf`, and the meanings of the three transitions. -/
theorem startSecondHalfTransitions : Obligations.StartSecondHalfTransitions := by
  unfold Obligations.StartSecondHalfTransitions
  refine ⟨fun s r hf hv hhalf hlong hsub => ?_, fun s r hf hv hhalf hlong hfull => ?_, fun s r hf hrest => ?_,
    fun _ _ => rfl, fun _ _ => rfl, fun _ _ _ _ _ _ => rfl⟩
  · rw [decodeKey_keyOf_startSecondHalf r hf, if_pos ⟨⟨hv, hhalf⟩, hlong⟩, if_pos hsub]
    exact ⟨_, rfl⟩
  · rw [decodeKey_keyOf_startSecondHalf r hf, if_pos ⟨⟨hv, hhalf⟩, hlong⟩, if_neg hfull.not_gt]
    exact ⟨_, rfl⟩
  · have hnot : ¬ ((r.level = true ∧ s.n < 2 * r.len) ∧ r.len < 3 * s.n) := fun ⟨⟨hv, hhalf⟩, hlong⟩ =>
      hrest.elim3 (Bool.eq_false_iff.1 · hv) hhalf.not_ge hlong.not_ge
    rw [decodeKey_keyOf_startSecondHalf r hf, if_neg hnot]
    exact ⟨_, _, _, _, _, rfl⟩

/-! ## The transitions of the data part (R137 to R143), with the resolutions of R144 and R176 -/

/-- Settles O19: the choice of `decodeKey_keyOf_dataFirstHalf`, and the meanings of the three transitions. -/
theorem dataFirstHalfTransitions : Obligations.DataFirstHalfTransitions := by
  unfold Obligations.DataFirstHalfTransitions
  refine ⟨fun s r hf hshort => ?_, fun s r hf hhalf hlong => ?_, fun s r hf hhalf hlong => ?_,
    fun _ _ _ _ _ => rfl, fun _ _ _ _ => rfl, fun _ _ _ _ => rfl⟩
  · rw [decodeKey_keyOf_dataFirstHalf r hf, if_pos hshort]
    exact ⟨_, _, _, _, rfl⟩
  · rw [decodeKey_keyOf_dataFirstHalf r hf, if_neg hhalf.not_ge, if_pos hlong]
    exact ⟨_, _, _, rfl⟩
  · rw [decodeKey_keyOf_dataFirstHalf r hf, if_neg hhalf.not_ge, if_neg hlong.not_ge]
    exact ⟨_, _, rfl⟩

/-- Settles O20: the choice of `decodeKey_keyOf_dataSecondHalf`, whose first test is the error, and the meanings of the four
transitions. -/
theorem dataSecondHalfTransitions : Obligations.DataSecondHalfTransitions := by
  unfold Obligations.DataSecondHalfTransitions
  refine ⟨fun s r hf herr => ?_, fun s r hf hhalf hpend hlong => ?_, fun s r hf hhalf hpend hlong hsub => ?_,
    fun s r hf hhalf hpend hlong hfull => ?_, fun _ _ _ _ _ _ => rfl, fun _ _ _ => rfl, fun _ _ => rfl, fun _ _ => rfl⟩
  · rw [decodeKey_keyOf_dataSecondHalf r hf, if_pos herr]
    exact ⟨_, _, _, _, _, rfl⟩
  · rw [decodeKey_keyOf_dataSecondHalf r hf, if_neg (not_or_intro hhalf.not_ge hpend), if_pos hlong]
    exact ⟨_, rfl⟩
  · rw [decodeKey_keyOf_dataSecondHalf r hf, if_neg (not_or_intro hhalf.not_ge hpend), if_neg hlong.not_ge, if_pos hsub]
  · rw [decodeKey_keyOf_dataSecondHalf r hf, if_neg (not_or_intro hhalf.not_ge hpend), if_neg hlong.not_ge,
      if_neg hfull.not_gt]

end Sys2Proof.Proofs
end

section
/-! The frame encoder (R160 to R165): what each symbol sends, the shape of an encoded frame, and the numbers that the bit
sequences stand for. -/

namespace Sys2Proof.Proofs

open Sys2Proof Sys2Proof.Machine

/-! ## The symbols (R161 to R164) -/

@[simp] theorem exec_encStart (s : State) : exec .encStart s = .next (emitPair false true s) := rfl
@[simp] theorem exec_encBit1 (s : State) : exec .encBit1 s = .next (emitPair false true s) := rfl
@[simp] theorem exec_encBit0 (s : State) : exec .encBit0 s = .next (emitPair true false s) := rfl
/-- The two idle half-bits of R164 are one pair. -/
@[simp] theorem exec_encIdle (s : State) : exec .encIdle s = .next (emitPair true true s) := rfl

/-- Settles O21: the words are those of R69, and each symbol is the pair it sends. -/
theorem encoderSymbols : Obligations.EncoderSymbols := by
  unfold Obligations.EncoderSymbols
  exact ⟨rfl, rfl, rfl, rfl, fun s => ⟨exec_encStart s, exec_encBit1 s, exec_encBit0 s, exec_encIdle s⟩⟩

/-! ## The encoded frame (R165) -/

@[simp] theorem pairOf_length (b : Bool) : (pairOf b).length = 2 := rfl

theorem encodeBits_eq (bits : List Bool) :
    encodeBits bits = [false, true] ++ bits.flatMap pairOf ++ [true, true] := rfl

theorem flatMap_pairOf_length (bits : List Bool) : (bits.flatMap pairOf).length = 2 * bits.length := by
  simp [Nat.mul_comm]

/-- Two half-bits for each bit, two for the start bit and two of idle. -/
theorem encodeBits_length (bits : List Bool) : (encodeBits bits).length = 2 * bits.length + 4 := by
  simp only [encodeBits_eq, List.length_append, flatMap_pairOf_length, List.length_cons, List.length_nil]
  omega

/-! ## Bit sequences and numbers -/

/-- The bits read so far are the high digits of the number. -/
theorem foldl_eq_intOf (a : Nat) (bits : List Bool) :
    bits.foldl (fun a b => a * 2 + b.toNat) a = 2 ^ bits.length * a + intOf bits := by
  induction bits generalizing a with
  | nil => simp [intOf]
  | cons b bits ih =>
    rw [intOf, List.foldl_cons, List.foldl_cons, ih, ih (0 * 2 + b.toNat), List.length_cons]
    ring

@[simp] theorem intOf_nil : intOf [] = 0 := rfl

/-- The first bit is the most significant. -/
theorem intOf_cons (b : Bool) (bits : List Bool) : intOf (b :: bits) = 2 ^ bits.length * b.toNat + intOf bits := by
  rw [intOf, List.foldl_cons, foldl_eq_intOf, Nat.zero_mul, Nat.zero_add]

theorem intOf_lt (bits : List Bool) : intOf bits < 2 ^ bits.length := by
  induction bits with
  | nil => exact Nat.one_pos
  | cons b bits ih =>
    have hb : 2 ^ bits.length * b.toNat ≤ 2 ^ bits.length * 1 := Nat.mul_le_mul_left _ b.toNat_le
    rw [intOf_cons, List.length_cons, pow_succ]
    omega

@[simp] theorem bitsOf_zero (v : Nat) : bitsOf v 0 = [] := rfl

theorem bitsOf_succ (v n : Nat) : bitsOf v (n + 1) = v.testBit n :: bitsOf v n := rfl

@[simp] theorem bitsOf_length (v n : Nat) : (bitsOf v n).length = n := by
  induction n with
  | zero => rfl
  | succ n ih => rw [bitsOf_succ, List.length_cons, ih]

theorem intOf_bitsOf (v n : Nat) : intOf (bitsOf v n) = v % 2 ^ n := by
  induction n with
  | zero => rw [bitsOf_zero, intOf_nil, pow_zero, Nat.mod_one]
  | succ n ih => rw [bitsOf_succ, intOf_cons, bitsOf_length, ih, Nat.toNat_testBit, Nat.mod_pow_succ, Nat.add_comm]

/-- The bits below place `m` do not see what is added at `m` and above. -/
theorem bitsOf_two_pow_mul_add {m n : Nat} (hn : n ≤ m) (a : Nat) {v : Nat} (hv : v < 2 ^ m) :
    bitsOf (2 ^ m * a + v) n = bitsOf v n := by
  induction n with
  | zero => rfl
  | succ n ih => rw [bitsOf_succ, bitsOf_succ, Nat.testBit_two_pow_mul_add a hv, if_pos (Nat.lt_of_succ_le hn),
      ih (Nat.le_of_succ_le hn)]

/-- A bit added at place `m` is read back there. -/
theorem testBit_two_pow_mul_toNat_add (b : Bool) {m v : Nat} (hv : v < 2 ^ m) :
    (2 ^ m * b.toNat + v).testBit m = b := by
  rw [Nat.testBit_two_pow_mul_add _ hv, if_neg (lt_irrefl m), Nat.sub_self, Nat.testBit_zero]
  cases b <;> rfl

theorem bitsOf_intOf (bits : List Bool) : bitsOf (intOf bits) bits.length = bits := by
  induction bits with
  | nil => rfl
  | cons b bits ih =>
    have hlt : intOf bits < 2 ^ bits.length := intOf_lt bits
    rw [intOf_cons, List.length_cons, bitsOf_succ, testBit_two_pow_mul_toNat_add b hlt,
      bitsOf_two_pow_mul_add le_rfl _ hlt, ih]

/-- Settles O55: the frame is `encodeBits_eq`, and `intOf` and `bitsOf` undo each other on sequences of the given length. -/
theorem encodedFrameFormat : Obligations.EncodedFrameFormat := by
  unfold Obligations.EncodedFrameFormat
  exact ⟨fun bits => ⟨encodeBits_eq bits, encodeBits_length bits⟩, fun v n => ⟨bitsOf_length v n, intOf_bitsOf v n⟩,
    bitsOf_intOf⟩

end Sys2Proof.Proofs
end

section
/-! The runs of a level sequence (R110, R113, R114): a level joins the first run of what follows it or is a run of its own,
so the runs partition the sequence and the first one is the maximal block it begins with. -/

namespace Sys2Proof.Proofs

open Sys2Proof Sys2Proof.Machine

/-! ## The runs partition the sequence (R114) -/

@[simp] theorem runsOf_nil : runsOf [] = [] := rfl

/-- A level joins the first run after it if that has the same level, and is a run of its own if not. -/
theorem runsOf_cons_cases (v : Level) (w : List Level) :
    (∃ k more, runsOf w = (v, k) :: more ∧ runsOf (v :: w) = (v, k + 1) :: more) ∨
    ((∀ r ∈ (runsOf w).head?, r.1 ≠ v) ∧ runsOf (v :: w) = (v, 1) :: runsOf w) := by
  rw [runsOf]
  split
  next hw => exact .inr ⟨by simp [hw], by rw [hw]⟩
  next u k more hw =>
    by_cases hvu : v = u
    · exact .inl ⟨k, more, by rw [hw, hvu], by rw [if_pos hvu, hvu]⟩
    · exact .inr ⟨by simp [hw, Ne.symm hvu], by rw [if_neg hvu, hw]⟩

theorem flatMap_runsOf (w : List Level) : (runsOf w).flatMap (fun r => List.replicate r.2 r.1) = w := by
  induction w with
  | nil => rfl
  | cons v w ih =>
    obtain ⟨k, more, hw, e⟩ | ⟨-, e⟩ := runsOf_cons_cases v w
    · rw [hw] at ih
      rw [e, List.flatMap_cons, List.replicate_succ, List.cons_append]
      exact congrArg (v :: ·) ih
    · rw [e, List.flatMap_cons, ih]
      rfl

theorem sum_runsOf (w : List Level) : ((runsOf w).map Prod.snd).sum = w.length := by
  conv_rhs => rw [← flatMap_runsOf w]
  simp [List.length_flatMap]

theorem runsOf_len_pos (w : List Level) : ∀ r ∈ runsOf w, 1 ≤ r.2 := by
  induction w with
  | nil => simp
  | cons v w ih =>
    obtain ⟨k, more, hw, e⟩ | ⟨-, e⟩ := runsOf_cons_cases v w
    · rw [hw, List.forall_mem_cons] at ih
      rw [e, List.forall_mem_cons]
      exact ⟨Nat.le_add_left 1 k, ih.2⟩
    · rw [e, List.forall_mem_cons]
      exact ⟨le_rfl, ih⟩

theorem isChain_runsOf (w : List Level) : (runsOf w).IsChain (fun a b => b.1 ≠ a.1) := by
  induction w with
  | nil => exact .nil
  | cons v w ih =>
    obtain ⟨k, more, hw, e⟩ | ⟨hne, e⟩ := runsOf_cons_cases v w
    · rw [hw, List.isChain_cons] at ih
      rw [e, List.isChain_cons]
      exact ih
    · rw [e, List.isChain_cons]
      exact ⟨hne, ih⟩

/-- Settles O13: each clause by induction on the sequence, a level joining the run after it or not. -/
theorem runsPartitionTheBuffer : Obligations.RunsPartitionTheBuffer := by
  unfold Obligations.RunsPartitionTheBuffer
  exact fun levels => ⟨flatMap_runsOf levels, sum_runsOf levels, runsOf_len_pos levels, isChain_runsOf levels⟩

/-! ## The first run of a sequence -/

theorem runsOf_head? (w : List Level) : (runsOf w).head?.map Prod.fst = w.head? := by
  cases w with
  | nil => rfl
  | cons v w => obtain ⟨k, more, -, e⟩ | ⟨-, e⟩ := runsOf_cons_cases v w <;> simp [e]

/-- A maximal block of one level is the first run. -/
theorem runsOf_replicate_append {v : Level} {k : Nat} {w : List Level} (hk : 1 ≤ k) (h : w.head? ≠ some v) :
    runsOf (List.replicate k v ++ w) = (v, k) :: runsOf w := by
  have hhead : ∀ r ∈ (runsOf w).head?, r.1 ≠ v := fun r hr hv => h (by rw [← runsOf_head?, hr, Option.map_some, hv])
  induction k, hk using Nat.le_induction with
  | base =>
    obtain ⟨k, more, hw, -⟩ | ⟨-, e⟩ := runsOf_cons_cases v w
    · exact absurd rfl (hhead (v, k) (by rw [hw]; rfl))
    · exact e
  | succ k _ ih =>
    obtain ⟨j, more, hw, e⟩ | ⟨hne, -⟩ := runsOf_cons_cases v (List.replicate k v ++ w)
    · rw [ih, List.cons.injEq, Prod.mk.injEq] at hw
      obtain ⟨⟨-, rfl⟩, rfl⟩ := hw
      exact e
    · exact absurd rfl (hne (v, k) (by rw [ih]; rfl))

/-- A constant sequence has at most one run. -/
theorem runsOf_replicate (v : Level) {k : Nat} (hk : 1 ≤ k) : runsOf (List.replicate k v) = [(v, k)] := by
  simpa using runsOf_replicate_append (w := []) (v := v) hk (by simp)

/-- Settles O12: the scan is determined by the levels from the cursor up to `total`. -/
theorem scannerReadsOnlyTheRestOfTheBuffer : Obligations.ScannerReadsOnlyTheRestOfTheBuffer := by
  unfold Obligations.ScannerReadsOnlyTheRestOfTheBuffer
  intro s t hp hpc htotal hlevels
  exact nextRun_congr hp hpc htotal hlevels

end Sys2Proof.Proofs
end

section
/-! The pass as a pure function (R91, R154): what the transitions of the document's table keep true of the frame under way
and of the items so far (R145 c, R146, R151, R152), and what follows for the items of a whole pass. -/

namespace Sys2Proof.Proofs

open Sys2Proof Sys2Proof.Machine

/-! ## The frame under way and the items so far -/

/-- Where the frame stands against the cursor, and what `pend` and the accumulator hold: `PhaseOk` on a session, with the
level `v` of the next run as an argument. -/
def SessionOk (n offset : Nat) (v : Level) (x : Session) : Prop :=
  match x.fsm with
  | .idle => True
  | .startFirstHalf => x.fsi = offset
  | .startSecondHalf => x.fsi + (n / 2 + 1) ≤ offset ∧ x.value = 0 ∧ x.bitCount = 0 ∧ v = true
  | .dataFirstHalf => x.fsi + 2 * (n / 2 + 1) ≤ offset ∧ x.value < 2 ^ x.bitCount
  | .dataSecondHalf =>
    x.fsi + 2 * (n / 2 + 1) ≤ offset ∧ x.value < 2 ^ x.bitCount ∧ x.pend = some (!v)

/-- Items in order and inside the buffer (R32, R33). -/
structure StoreOk (total : Nat) (items : List Item) : Prop where
  each : ∀ it ∈ items, ItemOk total it
  ordered : items.Pairwise EndsBefore

/-- A pass that began at `start` and has scanned up to `offset`, the next run having level `v`. -/
structure PassOk (n total start offset : Nat) (v : Level) (x : Session) (items : List Item) : Prop
    extends StoreOk total items where
  phase : SessionOk n offset v x
  past : ∀ it ∈ items, ∀ stop, it.stopIndex = some stop → stop ≤ offset ∧ (x.fsm ≠ .idle → stop < x.fsi)
  longRuns : start + (items.length + x.fsm.armedCount) * (3 * n) ≤ offset

theorem StoreOk.nil (total : Nat) : StoreOk total [] := ⟨by simp, .nil⟩

theorem StoreOk.concat {total : Nat} {items : List Item} {it : Item} (h : StoreOk total items) (hit : ItemOk total it)
    (hbefore : ∀ a ∈ items, EndsBefore a it) : StoreOk total (items ++ [it]) where
  each := List.forall_mem_append.2 ⟨h.each, by simpa using hit⟩
  ordered := List.pairwise_append.2 ⟨h.ordered, List.pairwise_singleton _ _, by simpa using hbefore⟩

theorem PassOk.start (n total offset : Nat) (v : Level) : PassOk n total offset offset v Session.start [] where
  toStoreOk := .nil total
  phase := trivial
  past := by simp
  longRuns := by simp [Session.start, FsmState.armedCount]

namespace PassOk

variable {n total start offset offset' : Nat} {v v' : Level} {x y : Session} {items : List Item}

/-- The stored items end before the frame under way begins. -/
theorem endsBefore (h : PassOk n total start offset v x items) (hf : x.fsm ≠ .idle) {b : Item}
    (hb : b.startIndex = x.fsi) : ∀ a ∈ items, EndsBefore a b := by
  intro a ha
  obtain ⟨stop, hstop, -⟩ := h.each a ha
  exact ⟨stop, hstop, hb ▸ (h.past a ha stop hstop).2 hf⟩

/-- A transition that emits nothing: the frame goes on or is given up, or a long run arms a new one. -/
theorem silent (h : PassOk n total start offset v x items) (hoff : offset < offset') (hphase : SessionOk n offset' v' y)
    (hfsi : y.fsm ≠ .idle → y.fsi = offset' ∨ x.fsm ≠ .idle ∧ y.fsi = x.fsi)
    (hlong : y.fsm.armedCount * (3 * n) ≤ x.fsm.armedCount * (3 * n) + (offset' - offset)) :
    PassOk n total start offset' v' y items where
  toStoreOk := h.toStoreOk
  phase := hphase
  past it hit stop hstop := by
    obtain ⟨hle, hlt⟩ := h.past it hit stop hstop
    refine ⟨by omega, fun hy => ?_⟩
    obtain hnew | ⟨hx, hold⟩ := hfsi hy
    · omega
    · exact hold ▸ hlt hx
  longRuns := by
    have := h.longRuns
    rw [Nat.add_mul] at this ⊢
    omega

/-- The Stop resolution (R144): the frame spans more than 4N samples, so the clamp selects nothing (R151). -/
theorem stop (h : PassOk n total start offset v x items) (hf : x.fsm.armedCount = 1) (hfsi : y.fsi = x.fsi)
    (hhalves : x.fsi + (n + 1) ≤ offset) (hvalue : y.value < 2 ^ y.bitCount) (hlt : offset < offset')
    (hlong : offset + 3 * n ≤ offset') (hend : offset' ≤ total) :
    PassOk n total start offset' v' (y.stop n total offset').1 (items ++ (y.stop n total offset').2) where
  toStoreOk := h.concat ⟨_, rfl, by simp only; omega, .inl ⟨rfl, by omega, _, _, rfl, rfl, hvalue⟩⟩
    (h.endsBefore (by rintro hidle; simp [hidle, FsmState.armedCount] at hf) hfsi)
  phase := rfl
  past := by
    refine List.forall_mem_append.2 ⟨fun it hit stop hstop => ?_, ?_⟩
    · have hpast : stop ≤ offset := (h.past it hit stop hstop).1
      exact ⟨by omega, fun _ => show stop < offset' by omega⟩
    · rintro it hit stop hstop
      obtain rfl := List.mem_singleton.1 hit
      obtain rfl := Option.some.inj hstop
      exact ⟨by omega, fun _ => show _ < offset' by omega⟩
  longRuns := by
    have := h.longRuns
    rw [hf] at this
    show start + ((items ++ [_]).length + 1) * (3 * n) ≤ offset'
    rw [List.length_append, List.length_singleton, Nat.add_mul]
    omega

/-- The Error resolution (R176): the item ends at the cursor, at most at `total` (C6). -/
theorem error (h : PassOk n total start offset v x items) (hf : x.fsm.armedCount = 1) (hfsi : x.fsi ≤ offset)
    (hoff : offset ≤ offset') (hend : offset' ≤ total) :
    PassOk n total start offset' v' (x.error offset').1 (items ++ (x.error offset').2) where
  toStoreOk := h.concat ⟨_, rfl, by simp; omega, .inr ⟨rfl, hend, rfl, rfl⟩⟩
    (h.endsBefore (by rintro hidle; simp [hidle, FsmState.armedCount] at hf) rfl)
  phase := trivial
  past := by
    refine List.forall_mem_append.2 ⟨fun it hit stop hstop => ?_, ?_⟩
    · exact ⟨(h.past it hit stop hstop).1.trans hoff, absurd rfl⟩
    · rintro it hit stop hstop
      obtain rfl := List.mem_singleton.1 hit
      obtain rfl := Option.some.inj hstop
      exact ⟨le_rfl, absurd rfl⟩
  longRuns := by
    have := h.longRuns
    rw [hf] at this
    show start + ((items ++ [_]).length + 0) * (3 * n) ≤ offset'
    rw [List.length_append, List.length_singleton, Nat.add_zero]
    omega

end PassOk

/-- Appending a bit keeps the value below two to the number of bits. -/
theorem append_value_lt {x : Session} (v : Level) (h : x.value < 2 ^ x.bitCount) :
    (x.append v).value < 2 ^ (x.append v).bitCount := by
  have hv := v.toNat_lt
  simp only [Session.append, pow_succ]
  omega

/-- Every transition keeps `PassOk`, the next run having the other level. -/
theorem PassOk.transition {n total start offset len : Nat} {v : Level} {x : Session} {items : List Item}
    (h : PassOk n total start offset v x items) (hlen : 1 ≤ len) (hend : offset + len ≤ total) :
    PassOk n total start (offset + len) (!v) (transition n total x v len offset).1
      (items ++ (transition n total x v len offset).2) := by
  have hphase := h.phase
  have hoff : offset < offset + len := by omega
  cases hf : x.fsm with
  | idle =>
    simp only [Machine.transition, hf]
    split_ifs with harm
    · rw [List.append_nil]
      exact h.silent hoff rfl (fun _ => .inl rfl) (by simp [FsmState.armedCount, hf]; omega)
    · rw [List.append_nil]
      exact h.silent hoff (by simp [SessionOk, hf]) (absurd hf) (by simp)
  | startFirstHalf =>
    simp only [SessionOk, hf] at hphase
    simp only [Machine.transition, hf]
    split_ifs with haccept
    all_goals rw [List.append_nil]
    · obtain ⟨rfl, hhalf, hsub⟩ := haccept
      exact h.silent hoff ⟨by simp; omega, rfl, rfl, rfl⟩ (fun _ => .inr ⟨by simp [hf], rfl⟩)
        (by simp [FsmState.armedCount, hf])
    · exact h.silent hoff trivial (absurd rfl) (by simp [FsmState.armedCount])
  | startSecondHalf =>
    simp only [SessionOk, hf] at hphase
    obtain ⟨hfsi, hvalue, hcount, rfl⟩ := hphase
    simp only [Machine.transition, hf]
    split_ifs with hgood hsub
    all_goals rw [List.append_nil]
    · exact h.silent hoff ⟨by simp; omega, by simp [hvalue, hcount]⟩ (fun _ => .inr ⟨by simp [hf], rfl⟩)
        (by simp [FsmState.armedCount, hf])
    · exact h.silent hoff ⟨by simp; omega, by simp [hvalue, hcount], rfl⟩ (fun _ => .inr ⟨by simp [hf], rfl⟩)
        (by simp [FsmState.armedCount, hf])
    · exact h.silent hoff trivial (absurd rfl) (by simp [FsmState.armedCount])
  | dataFirstHalf =>
    simp only [SessionOk, hf] at hphase
    obtain ⟨hfsi, hvalue⟩ := hphase
    simp only [Machine.transition, hf]
    split_ifs with hhalf hlong
    · exact h.stop (by rw [hf]; rfl) rfl (by omega) hvalue hoff (by omega) hend
    · rw [List.append_nil]
      exact h.silent hoff ⟨by simp; omega, hvalue, by simp⟩ (fun _ => .inr ⟨by simp [hf], rfl⟩)
        (by simp [FsmState.armedCount, hf])
    · exact h.error (by rw [hf]; rfl) (by omega) hoff.le hend
  | dataSecondHalf =>
    simp only [SessionOk, hf] at hphase
    obtain ⟨hfsi, hvalue, hpend⟩ := hphase
    have hvalue' := append_value_lt v hvalue
    simp only [Machine.transition, hf]
    split_ifs with hshort hlong hsub
    · exact h.error (by rw [hf]; rfl) (by omega) hoff.le hend
    · exact h.stop (by rw [hf]; rfl) rfl (by omega) hvalue' hoff (by omega) hend
    all_goals rw [List.append_nil]
    · exact h.silent hoff ⟨by simp [Session.append]; omega, hvalue'⟩ (fun _ => .inr ⟨by simp [hf], rfl⟩)
        (by simp [FsmState.armedCount, hf])
    · refine h.silent hoff ?_ (fun _ => .inr ⟨by simp [hf], rfl⟩) (by simp [Session.append, hf])
      simp only [SessionOk, Session.append, hf]
      exact ⟨by omega, hvalue', by simp⟩

/-! ## The items of a sequence of runs -/

@[simp] theorem itemsOfRuns_nil (n total offset : Nat) (x : Session) : itemsOfRuns n total offset x [] = [] := rfl

@[simp] theorem itemsOfRuns_cons (n total offset : Nat) (x : Session) (v : Level) (len : Nat) (runs : List (Level × Nat)) :
    itemsOfRuns n total offset x ((v, len) :: runs) = (transition n total x v len offset).2 ++
      itemsOfRuns n total (offset + len) (transition n total x v len offset).1 runs := rfl

/-- The runs left to scan up to `total`, the first of level `v`: each has a sample, levels alternate. -/
structure RunsLeft (total offset : Nat) (v : Level) (runs : List (Level × Nat)) : Prop where
  head : ∀ r ∈ runs.head?, r.1 = v
  len_pos : ∀ r ∈ runs, 1 ≤ r.2
  chain : runs.IsChain (fun a b => b.1 ≠ a.1)
  sum : offset + (runs.map Prod.snd).sum = total

theorem RunsLeft.tail {total offset len : Nat} {u v : Level} {runs : List (Level × Nat)}
    (h : RunsLeft total offset v ((u, len) :: runs)) :
    u = v ∧ 1 ≤ len ∧ offset + len ≤ total ∧ RunsLeft total (offset + len) (!v) runs := by
  obtain ⟨hhead, hlen, hchain, hsum⟩ := h
  obtain rfl : u = v := hhead (u, len) rfl
  rw [List.forall_mem_cons] at hlen
  rw [List.isChain_cons] at hchain
  rw [List.map_cons, List.sum_cons] at hsum
  exact ⟨rfl, hlen.1, by omega,
    { head := fun r hr => Bool.eq_not.2 (hchain.1 r hr), len_pos := hlen.2, chain := hchain.2, sum := by omega }⟩

/-- At the end of the runs the items are in order, and each has taken 3N samples. -/
theorem PassOk.itemsOfRuns {n total start offset : Nat} {v : Level} {x : Session} {items : List Item}
    {runs : List (Level × Nat)} (h : PassOk n total start offset v x items) (hruns : RunsLeft total offset v runs) :
    StoreOk total (items ++ itemsOfRuns n total offset x runs) ∧
      start + (items ++ itemsOfRuns n total offset x runs).length * (3 * n) ≤ total := by
  induction runs generalizing offset v x items with
  | nil =>
    have hlong := h.longRuns
    have hsum := hruns.sum
    rw [Nat.add_mul] at hlong
    rw [itemsOfRuns_nil, List.append_nil]
    exact ⟨h.toStoreOk, by simp at hsum; omega⟩
  | cons r runs ih =>
    obtain ⟨u, len⟩ := r
    obtain ⟨rfl, hlen, hend, hrest⟩ := hruns.tail
    rw [itemsOfRuns_cons, ← List.append_assoc]
    exact ih (h.transition hlen hend) hrest

/-! ## The pass -/

theorem decodePass_of_lt {sr br : Nat} (h : computeN sr br < 3) (levels : List Level) (valid : Bool) (off : Nat) :
    decodePass levels sr br valid off = [] := if_pos h

theorem decodePass_of_le {sr br : Nat} (h : 3 ≤ computeN sr br) (levels : List Level) (valid : Bool) (off : Nat) :
    decodePass levels sr br valid off = itemsOfRuns (computeN sr br) levels.length
      (startOffsetOf valid off levels.length) Session.start (runsOf (levels.drop (startOffsetOf valid off levels.length))) :=
  if_neg h.not_gt

theorem startOffsetOf_le (valid : Bool) (off total : Nat) : startOffsetOf valid off total ≤ total := by
  rw [startOffsetOf_eq]
  split <;> omega

/-- The runs of the rest of a buffer are the runs left to scan. -/
theorem runsLeft_drop {levels : List Level} {offset : Nat} (h : offset ≤ levels.length) :
    ∃ v, RunsLeft levels.length offset v (runsOf (levels.drop offset)) := by
  have hrest (v : Level) (hv : ∀ r ∈ (runsOf (levels.drop offset)).head?, r.1 = v) :
      RunsLeft levels.length offset v (runsOf (levels.drop offset)) :=
    { head := hv
      len_pos := runsOf_len_pos _
      chain := isChain_runsOf _
      sum := by rw [sum_runsOf, List.length_drop]; omega }
  cases hhead : (runsOf (levels.drop offset)).head? with
  | none => exact ⟨true, hrest true (by simp [hhead])⟩
  | some r => exact ⟨r.1, hrest r.1 (by simp [hhead])⟩

/-- The items of a pass are in order, and each has taken 3N of the samples scanned. -/
theorem decodePass_ok (levels : List Level) (sr br : Nat) (valid : Bool) (off : Nat) :
    StoreOk levels.length (decodePass levels sr br valid off) ∧
      startOffsetOf valid off levels.length +
        (decodePass levels sr br valid off).length * (3 * computeN sr br) ≤ levels.length := by
  have hstart := startOffsetOf_le valid off levels.length
  by_cases hn : 3 ≤ computeN sr br
  · obtain ⟨v, hruns⟩ := runsLeft_drop hstart
    rw [decodePass_of_le hn]
    exact (PassOk.start _ _ _ v).itemsOfRuns hruns
  · rw [decodePass_of_lt (by omega)]
    exact ⟨.nil _, by simpa using hstart⟩

/-- Settles O51: `PassOk` holds at the start of a pass, every transition keeps it, and it says the items are in order. -/
theorem decodedItemsAreInOrder : Obligations.DecodedItemsAreInOrder := by
  unfold Obligations.DecodedItemsAreInOrder
  intro levels sr br valid off
  obtain ⟨⟨hitems, hordered⟩, -⟩ := decodePass_ok levels sr br valid off
  exact ⟨hordered, hitems⟩

/-- Settles O52: each item has taken 3N of the samples scanned, and N is at least 3 where there are items. -/
theorem decodedItemCountIsBounded : Obligations.DecodedItemCountIsBounded := by
  unfold Obligations.DecodedItemCountIsBounded
  intro levels sr br valid off
  obtain ⟨-, hcount⟩ := decodePass_ok levels sr br valid off
  by_cases hn : 3 ≤ computeN sr br
  · have hnine := Nat.mul_le_mul_left (decodePass levels sr br valid off).length (show 9 ≤ 3 * computeN sr br by omega)
    rw [Nat.le_div_iff_mul_le (by omega), Nat.le_div_iff_mul_le (by omega)]
    omega
  · simp [decodePass_of_lt (Nat.lt_of_not_ge hn)]

/-- Settles O53: what is left of a constant buffer is at most one run, and no run emits an item in Idle. -/
theorem constantBufferYieldsNothing : Obligations.ConstantBufferYieldsNothing := by
  unfold Obligations.ConstantBufferYieldsNothing
  intro v k sr br valid off
  by_cases hn : 3 ≤ computeN sr br
  · rw [decodePass_of_le hn, List.length_replicate, List.drop_replicate]
    rcases (k - startOffsetOf valid off k).eq_zero_or_pos with hk | hk
    · rw [hk]
      rfl
    · rw [runsOf_replicate v hk, itemsOfRuns_cons, itemsOfRuns_nil, List.append_nil]
      simp only [transition, Session.start]
      split <;> rfl
  · exact decodePass_of_lt (by omega) _ _ _

end Sys2Proof.Proofs
end

section
/-! The pass at finite widths (R3, D5, D6): no transition tests the accumulator, so keeping every register at its width only
keeps the items at their widths too; and within the premise of R3 every item fits. -/

namespace Sys2Proof.Proofs

open Sys2Proof Sys2Proof.Machine

/-- The frame begins at or before the cursor. -/
theorem transition_fsi_le {n total len offset : Nat} {v : Level} {x : Session} (h : x.fsi ≤ offset) :
    (transition n total x v len offset).1.fsi ≤ offset + len := by
  unfold transition
  cases x.fsm
  all_goals dsimp only
  all_goals split_ifs
  all_goals simp only [Session.stop, Session.error, Session.append]
  all_goals omega

/-- A transition of a session kept at finite widths gives the session and the items of the same transition, kept at finite
widths: its tests are on `state`, `pend` and the run, which lose nothing, and appending a bit commutes with wrapping. -/
theorem transition_truncate {w : Widths} {x : Session} (hfsi : x.fsi < 2 ^ w.index) (n total len offset : Nat)
    (v : Level) :
    (transition n total (x.truncate w) v len offset).1.truncate w = (transition n total x v len offset).1.truncate w ∧
    (transition n total (x.truncate w) v len offset).2.map (Item.truncate w) =
      (transition n total x v len offset).2.map (Item.truncate w) := by
  unfold transition
  cases hf : x.fsm
  all_goals simp only [Session.truncate, hf]
  all_goals split_ifs
  all_goals simp [Session.stop, Session.error, Session.append, Item.truncate, hf, Nat.mod_eq_of_lt hfsi, Nat.add_mod,
    Nat.mul_mod]

/-- Within the premise on indices a pass at finite widths gives the items of the reference semantics, kept at finite
widths. -/
theorem itemsOfRunsAt_truncate {w : Widths} {n total : Nat} (htotal : total < 2 ^ w.index) {offset : Nat} {x : Session}
    {runs : List (Level × Nat)} (hfsi : x.fsi ≤ offset) (hsum : offset + (runs.map Prod.snd).sum ≤ total) :
    itemsOfRunsAt w n total offset (x.truncate w) runs = (itemsOfRuns n total offset x runs).map (Item.truncate w) := by
  induction runs generalizing offset x with
  | nil => rfl
  | cons r runs ih =>
    obtain ⟨v, len⟩ := r
    rw [List.map_cons, List.sum_cons] at hsum
    obtain ⟨hsession, hitems⟩ := transition_truncate (x := x) (w := w) (by omega) n total len offset v
    rw [itemsOfRunsAt, itemsOfRuns_cons, List.map_append, hitems, hsession, Nat.mod_eq_of_lt (by omega),
      ih (transition_fsi_le hfsi) (by omega)]

/-- An item whose numbers fit their fields is kept as it is. -/
theorem truncate_of_fits {w : Widths} {it : Item} (h : ItemFits w it) : it.truncate w = it := by
  obtain ⟨kind, value, count, start, stop⟩ := it
  obtain ⟨hstart, hstop, hcount, hvalue⟩ := h
  have hkeep {o : Option Nat} {m : Nat} (ho : ∀ x ∈ o, x < m) : o.map (· % m) = o := by
    cases o with
    | none => rfl
    | some x => exact congrArg some (Nat.mod_eq_of_lt (ho x rfl))
  simp only [Item.truncate, hkeep hstop, hkeep hcount, hkeep hvalue, Nat.mod_eq_of_lt hstart]

/-- An item inside the buffer fits its fields if its number of bits fits both the counter and the value. -/
theorem itemFits_of_itemOk {w : Widths} {total : Nat} {it : Item} (h : ItemOk total it) (htotal : total < 2 ^ w.index)
    (hcount : ∀ c, it.bitCount = some c → c ≤ min w.value (2 ^ w.bitCount - 1)) : ItemFits w it := by
  have hcounter := Nat.two_pow_pos w.bitCount
  obtain ⟨stop, hstop, hle, ⟨-, hend, v, c, hv, hc, hvc⟩ | ⟨-, hend, hv, hc⟩⟩ := h
  · have hcfits := hcount c hc
    have hvfits : v < 2 ^ w.value := hvc.trans_le (Nat.pow_le_pow_right two_pos (by omega))
    refine ⟨by omega, ?_, ?_, ?_⟩
    all_goals simp [hstop, hc, hv]
    all_goals omega
  · refine ⟨by omega, ?_, ?_, ?_⟩
    all_goals simp [hstop, hc, hv]
    omega

/-- Settles O54: the pass at finite widths gives the items kept at finite widths, and by `decodePass_ok` and the premise
each of them fits. -/
theorem finiteWidthsAgreeWithinThePremise : Obligations.FiniteWidthsAgreeWithinThePremise := by
  unfold Obligations.FiniteWidthsAgreeWithinThePremise
  intro w levels sr br valid off hindex hcount
  have hlen : levels.length < 2 ^ w.index := by omega
  obtain ⟨⟨hitems, -⟩, -⟩ := decodePass_ok levels sr br valid off
  have hfits : (decodePass levels sr br valid off).map (Item.truncate w) = decodePass levels sr br valid off :=
    (List.map_congr_left fun it hit =>
      truncate_of_fits (itemFits_of_itemOk (hitems it hit) hlen (hcount it hit))).trans (List.map_id _)
  have hstart := startOffsetOf_le valid off levels.length
  by_cases hn : 3 ≤ computeN sr br
  · have hzero : Session.start.truncate w = Session.start := by simp [Session.truncate, Session.start]
    have hrun := itemsOfRunsAt_truncate (n := computeN sr br) hlen (x := Session.start) (Nat.zero_le _)
      (runs := runsOf (levels.drop (startOffsetOf valid off levels.length))) (offset := startOffsetOf valid off levels.length)
      (by rw [sum_runsOf, List.length_drop]; omega)
    rw [hzero, ← decodePass_of_le hn, hfits] at hrun
    exact (if_neg hn.not_gt).trans hrun
  · rw [decodePass_of_lt (by omega)]
    exact if_pos (by omega)

end Sys2Proof.Proofs
end

section
/-! The waveforms of the encoder (R72, R73, R167) and what a pass decodes of them (R168, R169): run by run, each half-bit of
N samples takes the frame machine to the state of the next. -/

namespace Sys2Proof.Proofs

open Sys2Proof Sys2Proof.Machine

/-! ## Waveforms -/

theorem resample_append (a b : List Level) (n : Nat) : resample (a ++ b) n = resample a n ++ resample b n :=
  List.flatMap_append

theorem resample_pairOf (b : Bool) (n : Nat) :
    resample (pairOf b) n = List.replicate n (!b) ++ List.replicate n b := by
  simp [resample, pairOf]

theorem resample_high (n : Nat) : resample [true, true] n = high (2 * n) := by
  simp [resample, high, two_mul, List.replicate_append_replicate]

/-- Resampling half-bit pairs, bit by bit. -/
theorem resample_flatMap_pairOf (bits : List Bool) (n : Nat) :
    resample (bits.flatMap pairOf) n = bits.flatMap fun b => resample (pairOf b) n :=
  List.flatMap_assoc

/-- The waveform of an encoded frame: start bit, data bits, idle. -/
theorem resample_encodeBits (bits : List Bool) (n : Nat) : resample (encodeBits bits) n =
    low n ++ high n ++ resample (bits.flatMap pairOf) n ++ high (2 * n) := by
  rw [encodeBits_eq, resample_append, resample_append, resample_high]
  exact congrArg (· ++ _ ++ _) (resample_pairOf true n)

/-- Settles O57: the start bit, data bits and tail of FRAME are those of the resampled encoding. -/
theorem frameMacroIsResampledEncoding : Obligations.FrameMacroIsResampledEncoding := by
  unfold Obligations.FrameMacroIsResampledEncoding
  intro bits n
  have hbit : (fun b => resample (pairOf b) n) = bitWave n := by
    funext b
    rw [resample_pairOf]
    cases b <;> rfl
  rw [resample_encodeBits, resample_flatMap_pairOf, hbit]
  rfl

/-! ## Decoding a sequence of levels, run by run -/

/-- The items of the levels `w` from index `offset` on. -/
def itemsFrom (n total offset : Nat) (x : Session) (w : List Level) : List Item :=
  itemsOfRuns n total offset x (runsOf w)

theorem head?_replicate_append {k : Nat} (hk : 1 ≤ k) (v : Level) (w : List Level) :
    (List.replicate k v ++ w).head? = some v := by
  rw [List.head?_append, List.head?_replicate, if_neg (by omega)]
  rfl

/-- A maximal block of one level is scanned as one run. -/
theorem itemsFrom_run {v : Level} {k : Nat} {w : List Level} (hk : 1 ≤ k) (hw : w.head? ≠ some v) (n total offset : Nat)
    (x : Session) : itemsFrom n total offset x (List.replicate k v ++ w) =
      (transition n total x v k offset).2 ++ itemsFrom n total (offset + k) (transition n total x v k offset).1 w := by
  rw [itemsFrom, runsOf_replicate_append hk hw, itemsOfRuns_cons]
  rfl

/-- A block of one level before a block of the other. -/
theorem itemsFrom_block {u v : Level} {j k : Nat} (hj : 1 ≤ j) (hk : 1 ≤ k) (huv : u ≠ v) (w : List Level)
    (n total offset : Nat) (x : Session) :
    itemsFrom n total offset x (List.replicate j v ++ (List.replicate k u ++ w)) =
      (transition n total x v j offset).2 ++
        itemsFrom n total (offset + j) (transition n total x v j offset).1 (List.replicate k u ++ w) :=
  itemsFrom_run hj (by simpa [head?_replicate_append hk] using huv) n total offset x

/-! ## The transitions that blocks of N and of 2N samples take -/

section Blocks

variable {n : Nat} (hn : 1 ≤ n) (total offset : Nat) (p : Option Level) (v : Level) (value count fsi : Nat)
include hn

theorem transition_accept {x : Session} (hx : x.fsm = .startFirstHalf) : transition n total x false n offset =
    (⟨.startSecondHalf, x.pend, 0, 0, x.fsi⟩, []) := by
  simp [transition, hx]
  omega

theorem transition_startHalf : transition n total ⟨.startSecondHalf, p, value, count, fsi⟩ true n offset =
    (⟨.dataFirstHalf, p, value, count, fsi⟩, []) := by
  have : 2 * n < 3 * n := by omega
  simp [transition, this]
  omega

theorem transition_startFull : transition n total ⟨.startSecondHalf, p, value, count, fsi⟩ true (2 * n) offset =
    (⟨.dataSecondHalf, some true, value, count, fsi⟩, []) := by
  have : ¬ 2 * (2 * n) < 3 * n := by omega
  simp [transition, this]
  omega

theorem transition_firstHalf : transition n total ⟨.dataFirstHalf, p, value, count, fsi⟩ v n offset =
    (⟨.dataSecondHalf, some v, value, count, fsi⟩, []) := by
  have hhalf : n < 2 * n := by omega
  have hlong : ¬ 3 * n ≤ n := by omega
  simp [transition, hhalf, hlong]

theorem transition_firstHalf_long {k : Nat} (hk : 3 * n ≤ k) :
    transition n total ⟨.dataFirstHalf, p, value, count, fsi⟩ v k offset =
      Session.stop n total (offset + k) ⟨.dataFirstHalf, p, value, count, fsi⟩ := by
  have hhalf : n < 2 * k := by omega
  simp [transition, hhalf, hk]

theorem transition_secondHalf :
    transition n total ⟨.dataSecondHalf, some (!v), value, count, fsi⟩ v n offset =
      (⟨.dataFirstHalf, some (!v), value * 2 + v.toNat, count + 1, fsi⟩, []) := by
  have hhalf : n < 2 * n := by omega
  have hlong : ¬ 3 * n ≤ n := by omega
  have hsub : 2 * n < 3 * n := by omega
  simp [transition, Session.append, hhalf, hlong, hsub]

theorem transition_secondHalf_full :
    transition n total ⟨.dataSecondHalf, some (!v), value, count, fsi⟩ v (2 * n) offset =
      (⟨.dataSecondHalf, some v, value * 2 + v.toNat, count + 1, fsi⟩, []) := by
  have hhalf : n < 2 * (2 * n) := by omega
  have hlong : ¬ 3 * n ≤ 2 * n := by omega
  have hsub : ¬ 2 * (2 * n) < 3 * n := by omega
  simp [transition, Session.append, hhalf, hlong, hsub]

theorem transition_secondHalf_long {k : Nat} (hk : 3 * n ≤ k) :
    transition n total ⟨.dataSecondHalf, some (!v), value, count, fsi⟩ v k offset =
      Session.stop n total (offset + k) ⟨.dataSecondHalf, some (!v), value * 2 + v.toNat, count + 1, fsi⟩ := by
  have hhalf : n < 2 * k := by omega
  simp [transition, Session.append, hhalf, hk]

end Blocks

/-! ## Frames (R168, R169) -/

/-- From the second half of a bit `a` on: each bit leads from one second half to the next, and the high run after the last
of them, of at least 3N samples, stops the frame. -/
theorem itemsFrom_secondHalf {n gap : Nat} (hn : 1 ≤ n) {rest : List Level} (hrest : rest.head? ≠ some true) (total : Nat)
    {bits : List Bool} {a : Bool} (hgap : (a :: bits).getLast? = some false → n ≤ gap)
    {offset after : Nat} (value count fsi : Nat) (hafter : after = offset + n + 2 * n * bits.length + 2 * n + gap) :
    ∃ y : Session, y.value = (a :: bits).foldl (fun v b => v * 2 + b.toNat) value ∧
      y.bitCount = count + (a :: bits).length ∧ y.fsi = fsi ∧
      itemsFrom n total offset ⟨.dataSecondHalf, some (!a), value, count, fsi⟩
        (List.replicate n a ++ (resample (bits.flatMap pairOf) n ++ (high (2 * n + gap) ++ rest))) =
      (y.stop n total after).2 ++ itemsFrom n total after (y.stop n total after).1 rest := by
  induction bits generalizing a offset value count with
  | nil =>
    rw [List.flatMap_nil, resample, List.flatMap_nil, List.nil_append, high]
    rw [List.length_nil, Nat.mul_zero, Nat.add_zero, Nat.add_assoc] at hafter
    cases a with
    | true =>
      refine ⟨⟨.dataSecondHalf, some (!true), value * 2 + true.toNat, count + 1, fsi⟩, rfl, rfl, rfl, ?_⟩
      rw [← List.append_assoc, List.replicate_append_replicate, itemsFrom_run (by omega) hrest,
        transition_secondHalf_long hn _ _ _ _ _ _ (by omega), hafter, Nat.add_assoc offset]
    | false =>
      have hlong : n ≤ gap := hgap rfl
      refine ⟨⟨.dataFirstHalf, some (!false), value * 2 + false.toNat, count + 1, fsi⟩, rfl, rfl, rfl, ?_⟩
      rw [itemsFrom_block hn (by omega) (by decide), transition_secondHalf hn, List.nil_append,
        itemsFrom_run (by omega) hrest, transition_firstHalf_long hn _ _ _ _ _ _ _ (by omega), hafter]
  | cons b bits ih =>
    rw [List.getLast?_cons_cons] at hgap
    have hcount : count + (a :: b :: bits).length = count + 1 + (b :: bits).length := by simp; ring
    rw [List.flatMap_cons, resample_append, resample_pairOf, List.append_assoc, List.append_assoc, hcount, List.foldl_cons]
    by_cases hba : b = a
    · subst hba
      obtain ⟨y, hvalue, hbits, hfsi, e⟩ := ih hgap (offset := offset + n + n) (value * 2 + b.toNat) (count + 1) (by
        rw [hafter, List.length_cons]; ring)
      refine ⟨y, hvalue, hbits, hfsi, ?_⟩
      rw [itemsFrom_block hn hn b.not_ne_self, transition_secondHalf hn, List.nil_append,
        itemsFrom_block hn hn b.not_ne_self.symm, transition_firstHalf hn, List.nil_append, e]
    · obtain rfl : b = !a := Bool.eq_not.2 hba
      obtain ⟨y, hvalue, hbits, hfsi, e⟩ := ih hgap (offset := offset + 2 * n) (value * 2 + a.toNat) (count + 1) (by
        rw [hafter, List.length_cons]; ring)
      refine ⟨y, hvalue, hbits, hfsi, ?_⟩
      rw [Bool.not_not] at e ⊢
      rw [← List.append_assoc, List.replicate_append_replicate, ← two_mul, itemsFrom_block (by omega) hn a.not_ne_self,
        transition_secondHalf_full hn, List.nil_append, e]

/-- The blocks of a frame whose first bit is `b`. -/
theorem frame_blocks (n gap : Nat) (b : Bool) (bits : List Bool) (rest : List Level) :
    resample (encodeBits (b :: bits)) n ++ high gap ++ rest =
      List.replicate n false ++ (List.replicate n true ++ (List.replicate n (!b) ++ (List.replicate n b ++
        (resample (bits.flatMap pairOf) n ++ (high (2 * n + gap) ++ rest))))) := by
  rw [resample_encodeBits, List.flatMap_cons, resample_append, resample_pairOf, high, high, high, high,
    ← List.replicate_append_replicate (m := gap)]
  simp only [low, List.append_assoc]

/-- The start bit of a frame leads to the second half of its first data bit. -/
theorem itemsFrom_startBit {n total offset : Nat} (hn : 1 ≤ n) (b : Bool) {x : Session} (hx : x.fsm = .startFirstHalf)
    (w : List Level) :
    itemsFrom n total offset x
      (List.replicate n false ++ (List.replicate n true ++ (List.replicate n (!b) ++ (List.replicate n b ++ w)))) =
    itemsFrom n total (offset + 3 * n) ⟨.dataSecondHalf, some (!b), 0, 0, x.fsi⟩ (List.replicate n b ++ w) := by
  have hthree : offset + n + n + n = offset + 3 * n := by ring
  rw [itemsFrom_block hn hn (by decide), transition_accept hn _ _ hx, List.nil_append]
  cases b with
  | true =>
    rw [itemsFrom_block hn hn (by decide), transition_startHalf hn, List.nil_append,
      itemsFrom_block hn hn (by decide), transition_firstHalf hn, List.nil_append, hthree]
  | false =>
    have hfull : offset + n + 2 * n = offset + 3 * n := by ring
    rw [Bool.not_false, ← List.append_assoc (List.replicate n true), List.replicate_append_replicate, ← two_mul,
      itemsFrom_block (by omega) hn (by decide), transition_startFull hn, List.nil_append, hfull]

/-- A frame of at least one bit, with enough high samples after it, is decoded to its item, and the frame machine is armed
for the next at its end. -/
theorem itemsFrom_frame {n total offset after gap : Nat} (hn : 1 ≤ n) {bits : List Bool} (hok : FrameOk n (bits, gap))
    {rest : List Level} (hrest : rest.head? ≠ some true) {x : Session} (hx : x.fsm = .startFirstHalf)
    (hfsi : x.fsi = offset) (hafter : after = offset + (2 * bits.length + 4) * n + gap) (hend : after ≤ total) :
    ∃ y : Session, y.fsm = .startFirstHalf ∧ y.fsi = after ∧
      itemsFrom n total offset x (resample (encodeBits bits) n ++ high gap ++ rest) =
        frameItem n offset bits :: itemsFrom n total after y rest := by
  obtain ⟨hne, hgap⟩ := hok
  obtain ⟨b, bits, rfl⟩ := List.exists_cons_of_ne_nil hne
  obtain ⟨y, hvalue, hcount, hyfsi, e⟩ := itemsFrom_secondHalf hn hrest total hgap (offset := offset + 3 * n)
    (after := after) 0 0 x.fsi (by rw [hafter, List.length_cons]; ring)
  have hclamp : min (offset + 4 * n) (total - 1) = offset + 4 * n := by
    have : (2 * (b :: bits).length + 4) * n = 2 * (bits.length * n) + 6 * n := by rw [List.length_cons]; ring
    omega
  have hitem : (y.stop n total after).2 = [frameItem n offset (b :: bits)] := by
    rw [Session.stop, hvalue, hcount, hyfsi, hfsi, hclamp, Nat.zero_add]
    rfl
  refine ⟨(y.stop n total after).1, rfl, rfl, ?_⟩
  rw [frame_blocks, itemsFrom_startBit hn b hx, e, hitem]
  rfl

theorem resample_length (w : List Level) (n : Nat) : (resample w n).length = w.length * n := by
  simp [resample, List.length_flatMap]

theorem framesWave_cons (n : Nat) (f : List Bool × Nat) (frames : List (List Bool × Nat)) :
    framesWave n (f :: frames) = resample (encodeBits f.1) n ++ high f.2 ++ framesWave n frames := rfl

theorem framesWave_cons_length (n : Nat) (f : List Bool × Nat) (frames : List (List Bool × Nat)) :
    (framesWave n (f :: frames)).length = (2 * f.1.length + 4) * n + f.2 + (framesWave n frames).length := by
  rw [framesWave_cons, List.length_append, List.length_append, resample_length, encodeBits_length, high,
    List.length_replicate]

/-- Every frame begins low. -/
theorem framesWave_head?_ne {n : Nat} (hn : 1 ≤ n) (frames : List (List Bool × Nat)) :
    (framesWave n frames).head? ≠ some true := by
  cases frames with
  | nil => simp [framesWave]
  | cons f frames =>
    rw [framesWave_cons, resample_encodeBits, low]
    simp only [List.append_assoc, head?_replicate_append hn]
    decide

/-- Frames in a row, the frame machine armed at the first: one item each. -/
theorem itemsFrom_framesWave {n total : Nat} (hn : 1 ≤ n) {frames : List (List Bool × Nat)} {offset : Nat} {x : Session}
    (hok : ∀ f ∈ frames, FrameOk n f) (hx : x.fsm = .startFirstHalf) (hfsi : x.fsi = offset)
    (htotal : offset + (framesWave n frames).length = total) :
    itemsFrom n total offset x (framesWave n frames) = framesItems n offset frames := by
  induction frames generalizing offset x with
  | nil => rfl
  | cons f frames ih =>
    rw [List.forall_mem_cons] at hok
    rw [framesWave_cons_length] at htotal
    obtain ⟨y, hy, hyfsi, e⟩ := itemsFrom_frame (total := total) hn hok.1 (framesWave_head?_ne hn frames) hx hfsi rfl
      (by omega)
    rw [framesWave_cons, e, ih hok.2 hy hyfsi (by omega)]
    rfl

/-- Settles O59: the leading high run arms the frame machine at the first frame, and each frame arms it at the next. -/
theorem backToBackLaw : Obligations.BackToBackLaw := by
  unfold Obligations.BackToBackLaw
  intro n lead sr br frames hn hrates hlead hok
  have harm (total : Nat) : transition n total Session.start true lead 0 =
      ({ Session.start with fsm := .startFirstHalf, fsi := 0 + lead }, []) := if_pos ⟨rfl, hlead⟩
  subst hrates
  rw [decodePass_of_le hn, show startOffsetOf false 0 _ = 0 from rfl, List.drop_zero]
  refine (itemsFrom_run (by omega) (framesWave_head?_ne (by omega) frames) _ _ _ _).trans ?_
  rw [harm, List.nil_append, Nat.zero_add]
  exact itemsFrom_framesWave (by omega) hok rfl rfl (by simp [high])

/-- Settles O58: the back-to-back law for a single frame. -/
theorem roundTripLaw : Obligations.RoundTripLaw := by
  unfold Obligations.RoundTripLaw
  intro n lead pad sr br bits hn hrates hlead hok
  have h := backToBackLaw n lead sr br [(bits, pad)] hn hrates hlead (by simpa using hok)
  rwa [framesWave_cons, framesWave, List.append_nil, ← List.append_assoc] at h

end Sys2Proof.Proofs
end

section
/-! Decode and encode (R65, R69), and the transition a run selects against the document's own table (R124, 44_frame_decoder.md
section 1): both by way of `chosen`, the instruction of a key as a choice on its bits. -/

namespace Sys2Proof.Proofs

open Sys2Proof Sys2Proof.Machine

/-! ## Decode and encode -/

/-- The instruction of a key is well formed: a catch-all row gets the keys no earlier row takes (R65). -/
theorem wf_chosen (f : FsmState) (v h t g p : Bool) : (chosen f v h t g p).wf = true := by
  cases f with
  | idle =>
    cases hc : v && g
    all_goals rw [chosen, hc]
    · exact (Bool.not_eq_true' _).mpr hc
    · rfl
  | startFirstHalf =>
    cases hc : !v && h && t
    all_goals rw [chosen, hc]
    · exact (Bool.not_eq_true' _).mpr hc
    · rfl
  | startSecondHalf =>
    cases hc : v && h && !g
    all_goals rw [chosen, hc]
    · exact (Bool.not_eq_true' _).mpr hc
    · cases t <;> rfl
  | dataFirstHalf => cases h <;> cases g <;> rfl
  | dataSecondHalf => cases h <;> cases p <;> cases g <;> cases t <;> rfl

/-- Decoding the word of the instruction of a key. -/
theorem decodeWord_encode_chosen {i : Instr} (f : FsmState) (v h t g p : Bool) (hi : chosen f v h t g p = i) :
    decodeWord i.isFirst (encode i) = .instr i := by
  subst hi
  rw [encode_chosen]
  exact decodeKey_packKey f v h t g p

/-- Settles O1: a well-formed instruction of the decoder is the one its key's bits select, so its word decodes to it. -/
theorem decodeUndoesEncode : Obligations.DecodeUndoesEncode := by
  unfold Obligations.DecodeUndoesEncode
  intro i hi
  cases i with
  | idleArm h t p => exact decodeWord_encode_chosen .idle true h t true p rfl
  | idleHold v h t g p =>
    have hc : (v && g) = false := (Bool.not_eq_true' _).mp hi
    exact decodeWord_encode_chosen .idle v h t g p (by rw [chosen, hc]; rfl)
  | sf1Accept g p => exact decodeWord_encode_chosen .startFirstHalf false true true g p rfl
  | sf1Reject v h t g p =>
    have hc : (!v && h && t) = false := (Bool.not_eq_true' _).mp hi
    exact decodeWord_encode_chosen .startFirstHalf v h t g p (by rw [chosen, hc]; rfl)
  | ss2Half p => exact decodeWord_encode_chosen .startSecondHalf true true true false p rfl
  | ss2Full p => exact decodeWord_encode_chosen .startSecondHalf true true false false p rfl
  | ss2Reject v h t g p =>
    have hc : (v && h && !g) = false := (Bool.not_eq_true' _).mp hi
    exact decodeWord_encode_chosen .startSecondHalf v h t g p (by rw [chosen, hc]; rfl)
  | df1Short v t g p => exact decodeWord_encode_chosen .dataFirstHalf v false t g p rfl
  | df1Stop v t p => exact decodeWord_encode_chosen .dataFirstHalf v true t true p rfl
  | df1Next v t p => exact decodeWord_encode_chosen .dataFirstHalf v true t false p rfl
  | ds2BitStop v t => exact decodeWord_encode_chosen .dataSecondHalf v true t true false rfl
  | ds2BitHalf v => exact decodeWord_encode_chosen .dataSecondHalf v true true false false rfl
  | ds2BitFull v => exact decodeWord_encode_chosen .dataSecondHalf v true false false false rfl
  | ds2Err v h t g p =>
    have hc : (!h || p) = true := by rw [← hi, Instr.wf, Bool.not_and, Bool.not_not]
    exact decodeWord_encode_chosen .dataSecondHalf v h t g p (by rw [chosen, hc]; rfl)
  | encStart => rfl
  | encBit1 => rfl
  | encBit0 => rfl
  | encIdle => rfl

/-- A key that decodes is the packing of its fields, and its instruction the one its bits select. -/
theorem eq_chosen_of_decodeKey {k : Key} {i : Instr} (h : decodeKey k = .instr i) :
    i.wf = true ∧ encode i = .key k := by
  by_cases hstate : (keyState k).toNat ≤ 4
  · have hk := packKey_fields k
    rw [← code_ofCode hstate] at hk
    rw [← hk, decodeKey_packKey, Decoded.instr.injEq] at h
    rw [← h, encode_chosen, hk]
    exact ⟨wf_chosen .., rfl⟩
  · rw [decodeKey_of_noStateCode (by omega)] at h
    cases h

/-- Settles O2: a key that decodes is the packing of its fields; of the symbols there are four at either position. -/
theorem encodeUndoesDecode : Obligations.EncodeUndoesDecode := by
  unfold Obligations.EncodeUndoesDecode
  refine ⟨fun k i => eq_chosen_of_decodeKey, fun first h i hi => ?_⟩
  have hthree : ∀ h : Hb2, h ≠ 0 → h ≠ 1 → h ≠ 2 → h = 3 := by decide
  unfold decodeHb2 at hi
  split_ifs at hi with hzero hfirst hone hone htwo
  · obtain rfl := hone
    cases hi
    exact ⟨rfl, rfl, hfirst.symm⟩
  · obtain rfl := hone
    cases hi
    exact ⟨rfl, rfl, (Bool.eq_false_iff.2 hfirst).symm⟩
  · obtain rfl := htwo
    cases hi
    exact ⟨rfl, rfl, (Bool.eq_false_iff.2 hfirst).symm⟩
  · obtain rfl := hthree h hzero hone htwo
    cases hi
    exact ⟨rfl, rfl, (Bool.eq_false_iff.2 hfirst).symm⟩

/-- Settles O5: each key written out is the packing of its fields, and its instruction the one they select. -/
theorem wordsOfTheSpecDecode : Obligations.WordsOfTheSpecDecode := by
  unfold Obligations.WordsOfTheSpecDecode
  exact ⟨decodeKey_packKey .idle true true false true false, decodeKey_packKey .startFirstHalf false true true false false,
    decodeKey_packKey .startSecondHalf true true false false false, decodeKey_packKey .dataFirstHalf true true true false true,
    decodeKey_packKey .dataSecondHalf true true true false false, decodeKey_packKey .dataSecondHalf true true false true true,
    rfl, rfl⟩

/-! ## The classes of runs, and the transition a run selects -/

/-- The class of a run by the integer conditions of R124. -/
theorem runClass_eq (len n : Nat) : runClass len n = if 3 * n ≤ len then .long
    else if n < 2 * len then (if 2 * len < 3 * n then .half else .full) else .short := by
  simp only [runClass, isLong_iff, isHalfBit_iff, isSubTriple_iff]

/-- Settles O10: with `runClass_eq` each clause compares integer conditions, class by class. -/
theorem fourClassesOfRuns : Obligations.FourClassesOfRuns := by
  unfold Obligations.FourClassesOfRuns
  intro len n hn hlen
  simp only [runClass_eq, isLong_eq, isHalfBit_eq, isSubTriple_eq, decide_eq_true_iff, decide_eq_false_iff_not]
  split_ifs
  all_goals simp only [false_iff, true_iff, false_implies, true_implies, true_and, and_true]
  all_goals omega

/-- A run selects the transition of the document's table, whose conditions are tried in the same order. -/
theorem mnemonic_of_decodeKey_keyOf {s : State} {r : Run} {i : Instr} (h : decodeKey (keyOf s r) = .instr i) :
    i.mnemonic = tableChoice s.fsm s.pend r.level r.len s.n := by
  cases hf : s.fsm with
  | idle =>
    rw [decodeKey_keyOf_idle r hf, Decoded.instr.injEq] at h
    rw [← h]
    exact apply_ite Instr.mnemonic _ _ _
  | startFirstHalf =>
    rw [decodeKey_keyOf_startFirstHalf r hf, Decoded.instr.injEq] at h
    simp only [← h, tableChoice, and_assoc, apply_ite Instr.mnemonic]
    rfl
  | startSecondHalf =>
    rw [decodeKey_keyOf_startSecondHalf r hf, Decoded.instr.injEq] at h
    simp only [← h, tableChoice, and_assoc, apply_ite Instr.mnemonic]
    rfl
  | dataFirstHalf =>
    rw [decodeKey_keyOf_dataFirstHalf r hf, Decoded.instr.injEq] at h
    simp only [← h, tableChoice, not_lt, apply_ite Instr.mnemonic]
    rfl
  | dataSecondHalf =>
    rw [decodeKey_keyOf_dataSecondHalf r hf, Decoded.instr.injEq] at h
    simp only [← h, tableChoice, not_lt, apply_ite Instr.mnemonic]
    rfl

/-- Settles O6: `chosen` tests the bits of R121 to R123 in the order of the document's table. -/
theorem keySelectsTransitionOfTheDocument : Obligations.KeySelectsTransitionOfTheDocument := by
  unfold Obligations.KeySelectsTransitionOfTheDocument
  intro s r
  exact ⟨_, decodeKey_keyOf s r, mnemonic_of_decodeKey_keyOf (decodeKey_keyOf s r), encode_chosen ..⟩

end Sys2Proof.Proofs
end

section
/-! A step of the pass (R85, R86) as a transition of the document's table: every instruction of the decoder writes only the
session of R154 and the store, and the one a run selects writes what the table says. -/

namespace Sys2Proof.Proofs

open Sys2Proof Sys2Proof.Machine

/-! ## The session of a state -/

/-- The five session values of R154 that a state holds. -/
def sessionOf (s : State) : Session :=
  { fsm := s.fsm, pend := s.pend, value := s.value, bitCount := s.bitCount, fsi := s.fsi }

/-- A state with the session `x` and the store `items`, else as it was. -/
def setSession (x : Session) (items : List Item) (s : State) : State :=
  { s with fsm := x.fsm, pend := x.pend, value := x.value, bitCount := x.bitCount, fsi := x.fsi, items := items }

section SetSession

variable (x : Session) (items : List Item) (s : State)

@[simp] theorem sessionOf_setSession : sessionOf (setSession x items s) = x := rfl
@[simp] theorem setSession_items : (setSession x items s).items = items := rfl
@[simp] theorem setSession_n : (setSession x items s).n = s.n := rfl
@[simp] theorem setSession_total : (setSession x items s).total = s.total := rfl
@[simp] theorem setSession_script : (setSession x items s).script = s.script := rfl
@[simp] theorem setSession_pc : (setSession x items s).pc = s.pc := rfl

end SetSession

/-! ## The transition that a run selects -/

/-- The instruction that a run selects does what the document's table says, the cursor being after the run (R86, R112). -/
theorem exec_of_decodeKey {s : State} {r : Run} {i : Instr} (hpc : s.pc = r.offset + r.len)
    (h : decodeKey (keyOf s r) = .instr i) :
    exec i s = .next (setSession (transition s.n s.total (sessionOf s) r.level r.len r.offset).1
      (s.items ++ (transition s.n s.total (sessionOf s) r.level r.len r.offset).2) s) := by
  cases hf : s.fsm with
  | idle =>
    have hx : (sessionOf s).fsm = .idle := hf
    rw [decodeKey_keyOf_idle r hf, Decoded.instr.injEq] at h
    simp only [transition, hx, ← h, ← hpc]
    split_ifs
    all_goals rw [List.append_nil]; rfl
  | startFirstHalf =>
    have hx : (sessionOf s).fsm = .startFirstHalf := hf
    rw [decodeKey_keyOf_startFirstHalf r hf, Decoded.instr.injEq] at h
    simp only [transition, hx, ← h, and_assoc]
    split_ifs
    all_goals rw [List.append_nil]; rfl
  | startSecondHalf =>
    have hx : (sessionOf s).fsm = .startSecondHalf := hf
    rw [decodeKey_keyOf_startSecondHalf r hf, Decoded.instr.injEq] at h
    simp only [transition, hx, ← h, and_assoc]
    split_ifs with hgood
    · rw [List.append_nil]; rfl
    · rw [List.append_nil, hgood.1]; rfl
    · rw [List.append_nil]; rfl
  | dataFirstHalf =>
    have hx : (sessionOf s).fsm = .dataFirstHalf := hf
    rw [decodeKey_keyOf_dataFirstHalf r hf, Decoded.instr.injEq] at h
    simp only [transition, hx, ← h, ← hpc, not_lt]
    split_ifs
    · rfl
    · rfl
    · rw [List.append_nil]; rfl
  | dataSecondHalf =>
    have hx : (sessionOf s).fsm = .dataSecondHalf := hf
    have hp : (sessionOf s).pend = s.pend := rfl
    rw [decodeKey_keyOf_dataSecondHalf r hf, Decoded.instr.injEq] at h
    simp only [transition, hx, hp, ← h, ← hpc, not_lt]
    split_ifs
    · rfl
    · rfl
    all_goals rw [List.append_nil]; rfl

/-- A step of a running pass with samples left scans, decodes and executes (R85, R86). -/
theorem decoderStep_of_decodeKey {s : State} {i : Instr} (hb : s.busy = true) (hp : s.pc < s.total)
    (h : decodeKey (keyOf s (nextRun s)) = .instr i) : decoderStep exec s = retire (exec i (scanned s)) := by
  rw [decoderStep, if_pos hb, if_pos hp, h]

/-- The state after a run has been scanned and its transition taken, before the pass is ended. -/
def afterRun (s : State) : State :=
  let y := transition s.n s.total (sessionOf s) (levelAt s s.pc) (nextRun s).len s.pc
  setSession y.1 (s.items ++ y.2) (scanned s)

section AfterRun

variable (s : State)

@[simp] theorem afterRun_pc : (afterRun s).pc = (nextRun s).after := rfl
@[simp] theorem afterRun_total : (afterRun s).total = s.total := rfl
@[simp] theorem afterRun_n : (afterRun s).n = s.n := rfl
@[simp] theorem afterRun_digital : (afterRun s).digital = s.digital := rfl
@[simp] theorem afterRun_analog : (afterRun s).analog = s.analog := rfl
@[simp] theorem afterRun_levelAt (i : Nat) : levelAt (afterRun s) i = levelAt s i := rfl
theorem afterRun_items : (afterRun s).items =
    s.items ++ (transition s.n s.total (sessionOf s) (levelAt s s.pc) (nextRun s).len s.pc).2 := rfl

end AfterRun

/-- A step of a running pass with samples left takes the transition of the document's table. -/
theorem decoderStep_running {s : State} (hb : s.busy = true) (hp : s.pc < s.total) :
    decoderStep exec s = .next (finishPass (afterRun s)) := by
  have hkey := decodeKey_keyOf s (nextRun s)
  have hexec := exec_of_decodeKey (s := scanned s) (r := nextRun s) rfl hkey
  rw [decoderStep_of_decodeKey hb hp hkey]
  exact congrArg retire hexec

/-- With no pass running the decoder does nothing (R190). -/
theorem decoderStep_idle {s : State} (hb : s.busy = false) : decoderStep exec s = .next s :=
  if_neg (by simp [hb])

/-- What a step of the decoder can do: take a transition, end a pass with nothing left to scan, or nothing. -/
theorem decoderStep_next_cases {s t : State} (h : decoderStep exec s = .next t) :
    (s.busy = true ∧ s.pc < s.total ∧ t = finishPass (afterRun s)) ∨ (s.busy = true ∧ t = endPass s) ∨
      (s.busy = false ∧ t = s) := by
  obtain ⟨hb, hp, -⟩ | ⟨hb, -, ht⟩ | hidle := decoderStep_cases h
  · rw [decoderStep_running hb hp, Host.Outcome.next.injEq] at h
    exact .inl ⟨hb, hp, h.symm⟩
  · exact .inr (.inl ⟨hb, ht⟩)
  · exact .inr (.inr hidle)

/-! ## The end of the pass (R87) -/

/-- Ending the pass writes STATUS only. -/
theorem finishPass_eq (s : State) :
    finishPass s = { s with busy := (finishPass s).busy, done := (finishPass s).done } := by
  unfold finishPass
  split <;> rfl

@[simp] theorem finishPass_pc (s : State) : (finishPass s).pc = s.pc := by rw [finishPass_eq]
@[simp] theorem finishPass_total (s : State) : (finishPass s).total = s.total := by rw [finishPass_eq]
@[simp] theorem finishPass_n (s : State) : (finishPass s).n = s.n := by rw [finishPass_eq]
@[simp] theorem finishPass_items (s : State) : (finishPass s).items = s.items := by rw [finishPass_eq]
@[simp] theorem finishPass_script (s : State) : (finishPass s).script = s.script := by rw [finishPass_eq]
@[simp] theorem finishPass_fsi (s : State) : (finishPass s).fsi = s.fsi := by rw [finishPass_eq]
@[simp] theorem finishPass_digital (s : State) : (finishPass s).digital = s.digital := by rw [finishPass_eq]
@[simp] theorem finishPass_analog (s : State) : (finishPass s).analog = s.analog := by rw [finishPass_eq]

theorem finishPass_busy_iff {s : State} (hb : s.busy = true) : (finishPass s).busy = true ↔ s.pc < s.total := by
  by_cases hp : s.pc < s.total
  · simp [finishPass_running hp, hb, hp]
  · simp [finishPass_ended hp, hp]

/-! ## The step -/

@[simp] theorem nextRun_setScript (ms : List Move) (s : State) : nextRun (setScript ms s) = nextRun s := by
  simp only [nextRun, setScript_pc, setScript_total, setScript_levelAt, sameLevelCount_congr (s := s) (t := setScript ms s)
    _ fun _ _ _ => setScript_levelAt ms s _]

theorem setScript_self {ms : List Move} {s : State} (h : s.script = ms) : setScript ms s = s := by
  subst h
  rfl

/-- A step of a running pass when the script is empty or names the decoder (log entry 5). -/
theorem step_pass {s : State} (hs : s.script = [] ∨ ∃ rest, s.script = .decoder :: rest) (hb : s.busy = true) :
    step s = decoderStep exec (setScript s.script.tail s) := by
  obtain hs | ⟨rest, hs⟩ := hs
  · rw [hs, List.tail_nil, setScript_self hs, step_running hs hb]
  · rw [step_decoder hs, hs, List.tail_cons]

theorem afterRun_setScript (ms : List Move) (s : State) : afterRun (setScript ms s) = setScript ms (afterRun s) := by
  rw [afterRun, scanned, nextRun_setScript]
  rfl

theorem finishPass_setScript (ms : List Move) (s : State) : finishPass (setScript ms s) = setScript ms (finishPass s) := by
  by_cases hp : s.pc < s.total
  · rw [finishPass_running hp, finishPass_running (s := setScript ms s) hp]
  · rw [finishPass_ended hp, finishPass_ended (s := setScript ms s) hp]
    rfl

/-- Such a step with samples left takes the transition of the document's table. -/
theorem step_pass_running {s : State} (hs : s.script = [] ∨ ∃ rest, s.script = .decoder :: rest) (hb : s.busy = true)
    (hp : s.pc < s.total) : step s = .next (setScript s.script.tail (finishPass (afterRun s))) := by
  rw [step_pass hs hb, decoderStep_running (s := setScript s.script.tail s) hb hp, afterRun_setScript, finishPass_setScript]

/-- Settles O14: the decoder's step is `decoderStep_of_decodeKey`, the encoder's executes what it fetches. -/
theorem stepRunsTheDecodedInstruction : Obligations.StepRunsTheDecodedInstruction := by
  unfold Obligations.StepRunsTheDecodedInstruction
  refine ⟨fun s u i hu hb hp hi => ?_, fun s u t i hu hf => ?_⟩
  · have hstep : step s = decoderStep exec u ∧ u.busy = true ∧ u.pc < u.total := by
      obtain ⟨hs, rfl⟩ | ⟨rest, hs, rfl⟩ := hu
      · exact ⟨step_running hs hb, hb, hp⟩
      · exact ⟨step_decoder hs, hb, hp⟩
    rw [hstep.1, decoderStep_of_decodeKey hstep.2.1 hstep.2.2 hi]
    change retire (exec i (scanned u)) = match exec i (scanned u) with | .next t => _ | .fault r => _ | .refused r => _
    cases exec i (scanned u) <;> rfl
  · have hstep : step s = encoderStep exec u := by
      obtain ⟨hs, hb, rfl⟩ | ⟨rest, hs, rfl⟩ := hu
      · exact step_resting hs hb
      · exact step_encoder hs
    rw [hstep, encoderStep, hf]

/-- A transition emits at most one item. -/
theorem transition_items (n total : Nat) (x : Session) (v : Level) (len offset : Nat) :
    (transition n total x v len offset).2 = [] ∨ ∃ it, (transition n total x v len offset).2 = [it] := by
  unfold transition
  cases x.fsm
  all_goals dsimp only
  all_goals split_ifs
  all_goals simp [Session.stop, Session.error]

/-- So a scanned run appends at most one item to the store. -/
theorem afterRun_items_cases (s : State) :
    (afterRun s).items = s.items ∨ ∃ it, (afterRun s).items = s.items ++ [it] := by
  rw [afterRun_items]
  obtain h | ⟨it, h⟩ := transition_items s.n s.total (sessionOf s) (levelAt s s.pc) (nextRun s).len s.pc
  · exact .inl (by rw [h, List.append_nil])
  · exact .inr ⟨it, by rw [h]⟩

/-- Settles O15: the step is `step_pass_running`; the run has a sample and stays inside the buffer. -/
theorem everyPassStepAdvances : Obligations.EveryPassStepAdvances := by
  unfold Obligations.EveryPassStepAdvances
  intro s hs hb hp
  have hpos := nextRun_len_pos s
  have hend := nextRun_end_le_total hp
  have hafter := nextRun_after s
  refine ⟨_, step_pass_running hs hb hp, rfl, by simp, by simp; omega, by simp; omega, by simp, by simp, ?_, ?_,
    fun hover => ?_⟩
  · simpa using afterRun_items_cases s
  · simpa using finishPass_busy_iff (s := afterRun s) hb
  · rw [setScript_done, finishPass_ended (by simpa using hover)]
    rfl

/-! ## Frames of the instructions -/

/-- Settles O22: what no rule names is untouched by definition; what a rule names is exempt by its mnemonic. -/
theorem frameOfSilentTransitions : Obligations.FrameOfSilentTransitions := by
  unfold Obligations.FrameOfSilentTransitions
  intro i s t hi h
  cases i
  all_goals simp [Instr.mnemonic] at hi
  all_goals
    cases h
    refine ⟨rfl, ⟨fun _ => rfl, fun _ => rfl⟩, ⟨rfl, rfl, rfl, rfl, rfl, rfl⟩, rfl, rfl, rfl, rfl, rfl, rfl,
      ⟨rfl, rfl, rfl⟩, ⟨rfl, rfl, rfl⟩, ?_, ?_, ?_, ?_⟩
    all_goals simp [Instr.mnemonic]

/-- Settles O23: the store is extended by `emit`; the rest as for the silent transitions. -/
theorem frameOfEmittingTransitions : Obligations.FrameOfEmittingTransitions := by
  unfold Obligations.FrameOfEmittingTransitions
  intro i s t hi h
  have hslots (it : Item) : (s.items ++ [it]).length = s.items.length + 1 ∧
      ∀ k, k < s.items.length → (s.items ++ [it])[k]? = s.items[k]? :=
    ⟨List.length_append, fun k hk => List.getElem?_append_left hk⟩
  cases i
  all_goals simp [Instr.mnemonic] at hi
  all_goals
    cases h
    refine ⟨(hslots _).1, (hslots _).2, ⟨fun _ => rfl, fun _ => rfl⟩, ⟨rfl, rfl, rfl, rfl, rfl, rfl⟩, rfl, rfl, rfl, rfl,
      rfl, rfl, rfl, ⟨rfl, rfl, rfl⟩, ⟨rfl, rfl, rfl⟩, ?_, ?_⟩
    all_goals simp [Instr.mnemonic]

/-- Settles O24: each symbol is one `emitPair`. -/
theorem frameOfEncoderSymbols : Obligations.FrameOfEncoderSymbols := by
  unfold Obligations.FrameOfEncoderSymbols
  intro i s t hi h
  cases i
  all_goals simp [Instr.mnemonic] at hi
  all_goals
    cases h
    exact ⟨rfl, ⟨fun _ => rfl, fun _ => rfl⟩, ⟨rfl, rfl, rfl, rfl, rfl, rfl⟩, rfl, rfl,
      ⟨rfl, rfl, rfl, rfl, rfl, rfl, rfl, rfl, rfl⟩, rfl, rfl, ⟨rfl, rfl, rfl⟩, _, _, rfl⟩

end Sys2Proof.Proofs
end

section
/-! The invariant of the machine: a running pass is a pure pass in progress (`PassOk`), so a step of it keeps the invariant by
`PassOk.transition`; every other move leaves what the invariant speaks of, or ends or begins a pass. -/

namespace Sys2Proof.Proofs

open Sys2Proof Sys2Proof.Machine

/-! ## The invariant as facts about the pass -/

theorem phaseOk_iff (s : State) : PhaseOk s ↔ SessionOk s.n s.pc (levelAt s s.pc) (sessionOf s) := by
  unfold PhaseOk SessionOk sessionOf
  cases s.fsm <;> rfl

variable {s t : State}

theorem storeOk_of_inv (h : Inv s) : StoreOk s.total s.items := ⟨h.items, h.ordered⟩

/-- A running pass is a pure pass in progress, the next run having the level at the cursor. -/
theorem passOk_of_inv (h : Inv s) (hb : s.busy = true) :
    PassOk s.n s.total 0 s.pc (levelAt s s.pc) (sessionOf s) s.items where
  toStoreOk := storeOk_of_inv h
  phase := (phaseOk_iff s).1 (h.phase hb)
  past := h.past hb
  longRuns := by
    rw [Nat.zero_add]
    exact h.longRuns hb

/-- The invariant of a state with a pass running. -/
theorem inv_of_passOk (hdigital : Memory.wf unwrittenLevel s.digital = true)
    (hanalog : Memory.wf unwrittenSample s.analog = true) (hdone : s.done = false) (hn : 3 ≤ s.n) (hp : s.pc < s.total)
    (hpass : PassOk s.n s.total 0 s.pc (levelAt s s.pc) (sessionOf s) s.items) : Inv s where
  digital := hdigital
  analog := hanalog
  status := by simp [hdone]
  running _ := ⟨hn, hp⟩
  phase _ := (phaseOk_iff s).2 hpass.phase
  items := hpass.each
  ordered := hpass.ordered
  past _ := hpass.past
  longRuns _ := by simpa [sessionOf] using hpass.longRuns
  count := by
    have := hpass.longRuns
    rw [Nat.add_mul] at this
    omega

/-- The invariant of a state with no pass running. -/
theorem inv_of_idle (hdigital : Memory.wf unwrittenLevel s.digital = true)
    (hanalog : Memory.wf unwrittenSample s.analog = true) (hb : s.busy = false) (hstore : StoreOk s.total s.items)
    (hcount : s.items.length * (3 * s.n) ≤ s.total) : Inv s where
  digital := hdigital
  analog := hanalog
  status := by simp [hb]
  running hbusy := by simp [hb] at hbusy
  phase hbusy := by simp [hb] at hbusy
  items := hstore.each
  ordered := hstore.ordered
  past hbusy := by simp [hb] at hbusy
  longRuns hbusy := by simp [hb] at hbusy
  count := hcount

/-- Settles O40: no pass runs, the store is empty and the sample spaces are. -/
theorem resetMeetsTheInvariant : Obligations.ResetMeetsTheInvariant :=
  inv_of_idle rfl rfl rfl (.nil _) (by simp [State.reset])

/-! ## A step of the pass -/

/-- A step of the pass leaves a pure pass in progress: the next run, if there is one, has the other level. -/
theorem passOk_afterRun (h : Inv s) (hb : s.busy = true) :
    PassOk s.n s.total 0 (nextRun s).after (!levelAt s s.pc) (sessionOf (afterRun s)) (afterRun s).items :=
  (passOk_of_inv h hb).transition (nextRun_len_pos s) (nextRun_end_le_total (h.running hb).2)

theorem inv_endPass (h : Inv s) : Inv (endPass s)   :=
  inv_of_idle h.digital h.analog rfl (storeOk_of_inv (s := s) h) h.count

theorem inv_decoderStep (h : Inv s) (ht : decoderStep exec s = .next t) : Inv t := by
  obtain ⟨hb, hp, rfl⟩ | ⟨-, rfl⟩ | ⟨-, rfl⟩ := decoderStep_next_cases ht
  · have hpass := passOk_afterRun h hb
    by_cases hmore : (nextRun s).after < s.total
    · have hdone : s.done = false := by simpa [hb] using h.status
      have hlevel : levelAt s (nextRun s).after = !levelAt s s.pc := Bool.eq_not.2 (levelAt_end_nextRun_ne hmore)
      rw [finishPass_running hmore]
      refine inv_of_passOk h.digital h.analog hdone (h.running hb).1 hmore ?_
      rwa [afterRun_levelAt, afterRun_pc, hlevel]
    · have hcount : (afterRun s).items.length * (3 * s.n) ≤ s.total := by
        have hlong := hpass.longRuns
        have hend := nextRun_end_le_total hp
        have hafter := nextRun_after s
        rw [Nat.add_mul] at hlong
        omega
      rw [finishPass_ended hmore]
      exact inv_of_idle h.digital h.analog rfl hpass.toStoreOk hcount
  · exact inv_endPass h
  · exact h

/-! ## The other moves -/

/-- Two states with the same pass: session, store, STATUS and samples. -/
structure SamePass (s t : State) : Prop where
  session : SameSession s t
  items : t.items = s.items
  busy : t.busy = s.busy
  done : t.done = s.done
  digital : t.digital = s.digital
  analog : t.analog = s.analog

theorem SamePass.levelAt (h : SamePass s t) (i : Nat) : levelAt t i = levelAt s i := by
  obtain ⟨-, -, -, -, -, -, -, -, hsrc⟩ := h.session
  simp only [Machine.levelAt, levelOf, hsrc, h.digital, h.analog]

theorem SamePass.sessionOf (h : SamePass s t) : sessionOf t = sessionOf s := by
  obtain ⟨-, hfsm, hpend, hvalue, hcount, hfsi, -, -, -⟩ := h.session
  simp only [Proofs.sessionOf, hfsm, hpend, hvalue, hcount, hfsi]

/-- Host registers, the encoder and the model's bookkeeping are no part of the pass. -/
theorem samePass_update (s : State) {rate baud : BitVec 32} {offset len fresh : Nat} {valid sel : Bool}
    {queue : List (List Bool)} {frame : Option (List Bool)} {out : List Level} {script : List Move} {answer : Answer} :
    SamePass s { s with
      sampleRate := rate, baudRate := baud, startOffset := offset, startOffsetValid := valid, srcSel := sel, length := len,
      encQueue := queue, encFrame := frame, encOut := out, script := script, answer := answer, fresh := fresh } :=
  ⟨⟨rfl, rfl, rfl, rfl, rfl, rfl, rfl, rfl, rfl⟩, rfl, rfl, rfl, rfl, rfl⟩

/-- A move that leaves the pass keeps the invariant. -/
theorem SamePass.inv (h : SamePass s t) (hs : Inv s) : Inv t := by
  obtain ⟨hn, hfsm, -, -, -, -, hpc, htotal, -⟩ := h.session
  cases hb : s.busy with
  | true =>
    obtain ⟨hrunning, hp⟩ := hs.running hb
    refine inv_of_passOk (h.digital ▸ hs.digital) (h.analog ▸ hs.analog) ?_ (hn ▸ hrunning) (by omega) ?_
    · rw [h.done]
      simpa [hb] using hs.status
    · rw [hn, htotal, hpc, h.levelAt, h.sessionOf, h.items]
      exact passOk_of_inv hs hb
  | false =>
    refine inv_of_idle (h.digital ▸ hs.digital) (h.analog ▸ hs.analog) (h.busy.trans hb) ?_ ?_
    · rw [htotal, h.items]
      exact storeOk_of_inv hs
    · rw [h.items, hn, htotal]
      exact hs.count

/-- The encoder's step writes the encoder's fields only (R160). -/
theorem encoderStep_next (s : State) : ∃ queue frame out,
    encoderStep exec s = .next { s with encQueue := queue, encFrame := frame, encOut := out } := by
  rw [encoderStep]
  cases hf : encoderFetch s with
  | none => exact ⟨_, _, _, rfl⟩
  | some p =>
    rw [encoderFetch] at hf
    split at hf
    all_goals cases hf
    all_goals exact ⟨_, _, _, rfl⟩

theorem samePass_encoderStep (h : encoderStep exec s = .next t) : SamePass s t ∧ SameConfig s t := by
  obtain ⟨queue, frame, out, e⟩ := encoderStep_next s
  rw [e] at h
  cases h
  exact ⟨samePass_update s, rfl, rfl, rfl, rfl, rfl, rfl⟩

/-- A register write starts a pass (R25) or leaves the pass (R43, R199). -/
theorem hostWrite_cases (r : HostReg) (v : Nat) (s : State) :
    (r = .ctrl ∧ v.testBit 0 = true ∧ s.busy = false ∧ hostWrite r v s = passStart s) ∨ SamePass s (hostWrite r v s) := by
  cases r with
  | ctrl =>
    cases hstart : v.testBit 0 && !s.busy with
    | true =>
      obtain ⟨hv, hb⟩ := Bool.and_eq_true_iff.1 hstart
      exact .inl ⟨rfl, hv, by simpa using hb, if_pos hstart⟩
    | false =>
      rw [hostWrite, if_neg (Bool.eq_false_iff.1 hstart)]
      exact .inr (samePass_update s)
  | _ => exact .inr (samePass_update s)

/-- What a move of the outside world can do to the pass: start one, reset it, store a sample while none runs, or leave
it. -/
theorem hostMove_cases {op : HostOp} (h : hostMove op s = .next t) :
    (∃ v, op = .write .ctrl v ∧ v.testBit 0 = true ∧ s.busy = false ∧ t = passStart s) ∨
    (op = .reset ∧ t = hardwareReset s) ∨
    (∃ i v, op = .storeDigital i v ∧ s.busy = false ∧ t = { s with digital := Memory.write unwrittenLevel i v s.digital }) ∨
    (∃ i v, op = .storeAnalog i v ∧ s.busy = false ∧ t = { s with analog := Memory.write unwrittenSample i v s.analog }) ∨
    SamePass s t := by
  cases op with
  | write r v =>
    cases h
    obtain ⟨rfl, hv, hb, e⟩ | hsame := hostWrite_cases r v s
    · exact .inl ⟨v, rfl, hv, hb, e⟩
    · exact .inr (.inr (.inr (.inr hsame)))
  | read r =>
    cases h
    rw [hostRead]
    split
    all_goals exact .inr (.inr (.inr (.inr (samePass_update s))))
  | readItem slot =>
    rw [hostMove, hostReadItem] at h
    split at h
    next => cases h; exact .inr (.inr (.inr (.inr (samePass_update s))))
    next =>
      split at h
      next => cases h; exact .inr (.inr (.inr (.inr (samePass_update s))))
      next => cases h
  | storeDigital i v =>
    rw [hostMove, storeDigital] at h
    split at h
    next => cases h
    next hb => cases h; exact .inr (.inr (.inl ⟨i, v, rfl, Bool.eq_false_iff.2 hb, rfl⟩))
  | storeAnalog i v =>
    rw [hostMove, storeAnalog] at h
    split at h
    next => cases h
    next hb => cases h; exact .inr (.inr (.inr (.inl ⟨i, v, rfl, Bool.eq_false_iff.2 hb, rfl⟩)))
  | reset => cases h; exact .inr (.inl ⟨rfl, rfl⟩)
  | encode frames => cases h; exact .inr (.inr (.inr (.inr (samePass_update s))))

/-! ## Every step keeps the invariant -/

/-- A start begins a pass in Idle with an empty store, or has ended it. -/
theorem inv_passStart (h : Inv s) : Inv (passStart s) := by
  have hpass (v : Level) : PassOk (passInit s).n (passInit s).total 0 (passInit s).pc v (sessionOf (passInit s)) [] :=
    { toStoreOk := .nil _, phase := trivial, past := by simp, longRuns := by simp [sessionOf, passInit, FsmState.armedCount] }
  obtain ⟨hn, hp, e⟩ | ⟨-, e⟩ := passStart_cases s
  · rw [e]
    exact inv_of_passOk h.digital h.analog rfl hn hp (hpass _)
  · rw [e]
    exact inv_of_idle h.digital h.analog rfl (.nil _) (by simp [passInit])

theorem inv_hostMove {op : HostOp} (h : Inv s) (ht : hostMove op s = .next t) : Inv t := by
  obtain ⟨-, -, -, -, rfl⟩ | ⟨-, rfl⟩ | ⟨i, v, -, hb, rfl⟩ | ⟨i, v, -, hb, rfl⟩ | hsame := hostMove_cases ht
  · exact inv_passStart h
  · exact inv_of_idle h.digital h.analog rfl (.nil _) (by simp [hardwareReset, State.reset])
  · exact inv_of_idle (Memory.write_wf i v h.digital) h.analog hb (storeOk_of_inv (s := s) h) h.count
  · exact inv_of_idle h.digital (Memory.write_wf i v h.analog) hb (storeOk_of_inv (s := s) h) h.count
  · exact hsame.inv h

/-- Settles O41: by who moves; a step of the pass by `inv_decoderStep`, the others leave the pass, start or reset it. -/
theorem everyStepKeepsTheInvariant : Obligations.EveryStepKeepsTheInvariant := by
  unfold Obligations.EveryStepKeepsTheInvariant
  intro s t h ht
  have hscript (ms : List Move) : Inv (setScript ms s) := (samePass_update s).inv h
  obtain ⟨-, -, ht⟩ | ⟨-, -, ht⟩ | ⟨rest, -, ht⟩ | ⟨rest, -, ht⟩ | ⟨op, rest, -, ht⟩ := step_cases ht
  · exact inv_decoderStep h ht
  · exact (samePass_encoderStep ht).1.inv h
  · exact inv_decoderStep (hscript rest) ht
  · exact (samePass_encoderStep ht).1.inv (hscript rest)
  · exact inv_hostMove (hscript rest) ht

/-! ## What the invariant says of a step -/

/-- Settles O42: the clause of the invariant for DataSecondHalf, and so the key's `pm` is 0 (R64). -/
theorem pendNeverMatchesTheScannedLevel : Obligations.PendNeverMatchesTheScannedLevel := by
  unfold Obligations.PendNeverMatchesTheScannedLevel
  intro s h hb hf
  have hphase := h.phase hb
  simp only [PhaseOk, hf] at hphase
  obtain ⟨-, -, hpend⟩ := hphase
  have hmatch : pendMatches s (nextRun s).level = false := by simp [pendMatches_eq, hpend]
  exact ⟨hpend, (keyP_packKey ..).trans hmatch⟩

/-- The document's table gives an error to a SHORT run, or to one whose level `pend` has. -/
theorem short_or_pend_of_tableChoice {f : FsmState} {pend : Option Level} {v : Level} {len n : Nat}
    (h : tableChoice f pend v len n ∈ ["DF1.SHORT", "DS2.ERR"]) :
    2 * len ≤ n ∨ f = .dataSecondHalf ∧ pend = some v := by
  unfold tableChoice at h
  cases f
  all_goals dsimp only at h
  all_goals split_ifs at h
  all_goals simp_all

/-- The document's table ends a frame at a LONG run in one of the two data states; in the second the bit is appended. -/
theorem transition_of_tableChoice_stop {n total len offset : Nat} {v : Level} {x : Session}
    (h : tableChoice x.fsm x.pend v len n ∈ ["DF1.STOP", "DS2.BIT_STOP"]) :
    3 * n ≤ len ∧ (x.fsm = .dataFirstHalf ∨ x.fsm = .dataSecondHalf) ∧
      ∃ y : Session, y.fsi = x.fsi ∧ transition n total x v len offset = y.stop n total (offset + len) := by
  unfold tableChoice at h
  cases hf : x.fsm with
  | idle | startFirstHalf | startSecondHalf =>
    simp only [hf] at h
    split_ifs at h
    all_goals simp at h
  | dataFirstHalf =>
    simp only [hf, transition] at h ⊢
    split_ifs at h ⊢ with hhalf hlong
    all_goals simp at h
    exact ⟨hlong, .inl trivial, x, rfl, rfl⟩
  | dataSecondHalf =>
    simp only [hf, transition] at h ⊢
    split_ifs at h ⊢ with hbad hlong
    all_goals simp at h
    exact ⟨hlong, .inr trivial, x.append v, rfl, rfl⟩

/-- Settles O43: the table gives an error to a SHORT run, or to one that `pend` matches, which the invariant shuts out. -/
theorem frameErrorsComeFromShortRuns : Obligations.FrameErrorsComeFromShortRuns := by
  unfold Obligations.FrameErrorsComeFromShortRuns
  intro s i h hb hi herr
  rw [mnemonic_of_decodeKey_keyOf hi] at herr
  obtain hshort | ⟨hf, hmatch⟩ := short_or_pend_of_tableChoice herr
  · exact hshort
  · obtain ⟨hpend, -⟩ := pendNeverMatchesTheScannedLevel s h hb hf
    rw [hpend] at hmatch
    simp at hmatch

/-- Settles O44: a Stop emits the item up to its clamp, and the frame is longer than 4N by the invariant and the long run. -/
theorem dataItemsSpanFourN : Obligations.DataItemsSpanFourN := by
  unfold Obligations.DataItemsSpanFourN
  intro s i h hs hb hi hstop
  obtain ⟨hn, hp⟩ := h.running hb
  have hphase := h.phase hb
  have hend := nextRun_end_le_total hp
  rw [mnemonic_of_decodeKey_keyOf hi] at hstop
  obtain ⟨hlong, hdata, y, hfsi, e⟩ := transition_of_tableChoice_stop (x := sessionOf s) (n := s.n) (v := levelAt s s.pc)
    (total := s.total) (offset := s.pc) hstop
  have hhalves : s.fsi + 2 * (s.n / 2 + 1) ≤ s.pc := by
    obtain hf | hf := hdata
    all_goals
      rw [PhaseOk, show s.fsm = _ from hf] at hphase
      exact hphase.1
  have hspan : s.fsi + 4 * s.n < (nextRun s).after := by
    rw [nextRun_after]
    omega
  have hclamp : min (y.fsi + 4 * s.n) (s.total - 1) = s.fsi + 4 * s.n := by
    rw [hfsi]
    exact min_eq_left (show s.fsi + 4 * s.n ≤ s.total - 1 by rw [nextRun_after] at hspan; omega)
  have hfsi' : (setScript s.script.tail (finishPass (afterRun s))).fsi = (nextRun s).after := by
    rw [setScript_fsi, finishPass_fsi]
    exact congrArg (fun p => p.1.fsi) e
  refine ⟨_, y.value, y.bitCount, step_pass_running hs hb hp, hfsi', hfsi' ▸ hspan, ?_⟩
  rw [setScript_items, finishPass_items, afterRun_items, e, Session.stop, hclamp, hfsi]
  rfl

end Sys2Proof.Proofs
end

section
/-! Who writes what (R10, R31, R40, R42, R43, R51, R190): each statement by who moves in the step. -/

namespace Sys2Proof.Proofs

open Sys2Proof Sys2Proof.Machine

variable {s t : State}

/-! ## Samples and store in a step of the pass -/

theorem decoderStep_samples (h : decoderStep exec s = .next t) : t.digital = s.digital ∧ t.analog = s.analog := by
  obtain ⟨-, -, rfl⟩ | ⟨-, rfl⟩ | ⟨-, rfl⟩ := decoderStep_next_cases h
  · simp
  · exact ⟨rfl, rfl⟩
  · exact ⟨rfl, rfl⟩

/-- A step of the pass leaves the store, or is one of a running pass and appends an item. -/
theorem decoderStep_items (h : decoderStep exec s = .next t) :
    t.items = s.items ∨ s.busy = true ∧ ∃ it, t.items = s.items ++ [it] := by
  obtain ⟨hb, -, rfl⟩ | ⟨-, rfl⟩ | ⟨-, rfl⟩ := decoderStep_next_cases h
  · rw [finishPass_items]
    exact (afterRun_items_cases s).imp_right fun hone => ⟨hb, hone⟩
  · exact .inl rfl
  · exact .inl rfl

/-! ## The statements -/

/-- Settles O45: the pass appends at most one item, the encoder and the other moves leave the store, a start or a reset
empties it. -/
theorem storeIsAppendOnly : Obligations.StoreIsAppendOnly := by
  unfold Obligations.StoreIsAppendOnly
  intro s t h
  obtain ⟨hs, -, h⟩ | ⟨-, -, h⟩ | ⟨rest, hs, h⟩ | ⟨rest, -, h⟩ | ⟨op, rest, hs, h⟩ := step_cases h
  · exact (decoderStep_items h).imp_right fun ⟨hb, hone⟩ => .inl ⟨hb, .inl hs, hone⟩
  · exact .inl (samePass_encoderStep h).1.items
  · exact (decoderStep_items h).imp_right fun ⟨hb, hone⟩ => .inl ⟨hb, .inr ⟨rest, hs⟩, hone⟩
  · exact .inl (samePass_encoderStep h).1.items
  · obtain ⟨v, rfl, hv, hb, rfl⟩ | ⟨rfl, rfl⟩ | ⟨_, _, -, -, rfl⟩ | ⟨_, _, -, -, rfl⟩ | hsame := hostMove_cases h
    · exact .inr (.inr ⟨passStart_items _, .inr ⟨v, rest, hs, hv, hb⟩⟩)
    · exact .inr (.inr ⟨rfl, .inl ⟨rest, hs⟩⟩)
    · exact .inl rfl
    · exact .inl rfl
    · exact .inl hsame.items

/-- Settles O46: a host move other than a start or a reset leaves the pass or stores a sample; the encoder leaves the pass and
the configuration. -/
theorem onlyThePassWritesTheSession : Obligations.OnlyThePassWritesTheSession := by
  unfold Obligations.OnlyThePassWritesTheSession
  refine ⟨fun s t op rest hs hreset hstart h => ?_, fun s t hs h => ?_, fun s rest hs hb => ?_⟩
  · rw [step_host hs] at h
    obtain ⟨v, hop, -⟩ | ⟨hop, -⟩ | ⟨_, _, -, -, rfl⟩ | ⟨_, _, -, -, rfl⟩ | hsame := hostMove_cases h
    · exact absurd hop (hstart v)
    · exact absurd hop hreset
    · exact ⟨⟨rfl, rfl, rfl, rfl, rfl, rfl, rfl, rfl, rfl⟩, rfl, rfl, rfl⟩
    · exact ⟨⟨rfl, rfl, rfl, rfl, rfl, rfl, rfl, rfl, rfl⟩, rfl, rfl, rfl⟩
    · exact ⟨hsame.session, hsame.items, hsame.busy, hsame.done⟩
  · have hencoder : ∃ ms, encoderStep exec (setScript ms s) = .next t := by
      obtain ⟨hs, hb⟩ | ⟨rest, hs⟩ := hs
      · exact ⟨[], by rwa [setScript_self hs, ← step_resting hs hb]⟩
      · exact ⟨rest, by rwa [← step_encoder hs]⟩
    obtain ⟨ms, hstep⟩ := hencoder
    obtain ⟨hsame, hconfig⟩ := samePass_encoderStep hstep
    exact ⟨hsame.session, hsame.items, hsame.busy, hsame.done, hconfig, fun _ => by rw [hsame.digital]; rfl,
      fun _ => by rw [hsame.analog]; rfl⟩
  · rw [step_decoder hs, decoderStep_idle (s := setScript rest s) hb]
    rfl

/-- Settles O47: no move but the owner's stores writes a sample, and those have no next state during a pass. -/
theorem onlyTheOwnerWritesSamples : Obligations.OnlyTheOwnerWritesSamples := by
  unfold Obligations.OnlyTheOwnerWritesSamples
  have hmove {s t : State} (h : step s = .next t) : (t.digital = s.digital ∧ t.analog = s.analog) ∨
      s.busy = false ∧ ((∃ i v rest, s.script = .host (.storeDigital i v) :: rest) ∨
        ∃ i v rest, s.script = .host (.storeAnalog i v) :: rest) := by
    obtain ⟨-, -, h⟩ | ⟨-, -, h⟩ | ⟨rest, -, h⟩ | ⟨rest, -, h⟩ | ⟨op, rest, hs, h⟩ := step_cases h
    · exact .inl (decoderStep_samples h)
    · exact .inl ⟨(samePass_encoderStep h).1.digital, (samePass_encoderStep h).1.analog⟩
    · exact .inl (decoderStep_samples (s := setScript rest s) h)
    · exact .inl ⟨(samePass_encoderStep h).1.digital, (samePass_encoderStep h).1.analog⟩
    · obtain ⟨_, -, -, -, rfl⟩ | ⟨-, rfl⟩ | ⟨i, v, rfl, hb, -⟩ | ⟨i, v, rfl, hb, -⟩ | hsame := hostMove_cases h
      · exact .inl (by rw [passStart_eq]; exact ⟨rfl, rfl⟩)
      · exact .inl ⟨rfl, rfl⟩
      · exact .inr ⟨hb, .inl ⟨i, v, rest, hs⟩⟩
      · exact .inr ⟨hb, .inr ⟨i, v, rest, hs⟩⟩
      · exact .inl ⟨hsame.digital, hsame.analog⟩
  refine ⟨fun s t hb h => (hmove h).resolve_right fun hstore => ?_, fun s t h hdigital hanalog =>
    (hmove h).resolve_right fun hstore => ?_⟩
  · rw [hb] at hstore
    exact absurd hstore.1 (by decide)
  · obtain ⟨-, ⟨i, v, rest, hs⟩ | ⟨i, v, rest, hs⟩⟩ := hstore
    · exact hdigital i v rest hs
    · exact hanalog i v rest hs

end Sys2Proof.Proofs
end

section
/-! The host interface (R20 to R28, R40 to R51, R101 to R103, R190, R199): each statement is the one host move of its step. -/

namespace Sys2Proof.Proofs

open Sys2Proof Sys2Proof.Machine

/-! ## Register reads and writes -/

/-- The registers by their numbers of R28. -/
theorem readReg_eq_of_number (s : State) (r : HostReg) : readReg s r = match r.number with
    | 0 => 0
    | 1 => (if s.busy then 1 else 0) + (if s.done then 2 else 0)
    | 2 => s.sampleRate.toNat
    | 3 => s.baudRate.toNat
    | 4 => s.startOffset
    | 5 => if s.startOffsetValid then 1 else 0
    | 6 => if s.srcSel then 1 else 0
    | 7 => s.length
    | _ => s.items.length := by
  cases r with
  | status => rw [readReg, statusWord]; cases s.busy <;> cases s.done <;> rfl
  | startOffsetValid => rw [readReg]; cases s.startOffsetValid <;> rfl
  | srcSel => rw [readReg]; cases s.srcSel <;> rfl
  | _ => rfl

/-- Settles O32: outside the one unspecified case a read answers `readReg`. -/
theorem registerReads : Obligations.RegisterReads := by
  unfold Obligations.RegisterReads
  intro s r rest hs hidle
  have hspecified : ¬ (r = .itemCount ∧ (setScript rest s).busy = true) := by
    rintro ⟨hr, hb⟩
    rw [setScript_busy, hidle hr] at hb
    cases hb
  rw [step_host hs, hostMove, hostRead, if_neg hspecified, readReg_eq_of_number]
  rfl

/-- Bit 0 of a value is its remainder by two (R28). -/
theorem testBit_zero_eq (v : Nat) : v.testBit 0 = decide (v % 2 = 1) := Nat.testBit_zero v

theorem ofNat_mod_two_pow (w v : Nat) : BitVec.ofNat w (v % 2 ^ w) = BitVec.ofNat w v := by
  apply BitVec.eq_of_toNat_eq
  simp

/-- A register write in a step. -/
theorem step_write {s : State} {r : HostReg} {v : Nat} {rest : List Move} (hs : s.script = .host (.write r v) :: rest) :
    step s = .next (hostWrite r v (setScript rest s)) := step_host hs

/-- A write of CTRL that starts no pass, bit 0 being clear or a pass running, does nothing (R25, log entry 16). -/
theorem hostWrite_ctrl_ignored {s : State} {v : Nat} (h : v.testBit 0 = false ∨ s.busy = true) :
    hostWrite .ctrl v s = s := by
  refine if_neg ?_
  obtain h | h := h
  all_goals simp [h]

/-- Settles O33: each write is `hostWrite`; of CTRL it is a start or is ignored. -/
theorem registerWrites : Obligations.RegisterWrites := by
  unfold Obligations.RegisterWrites
  intro s v rest
  refine ⟨fun hs => ?_, fun hs => ?_, step_write, fun hs => ?_, fun hs => ?_, step_write, step_write, step_write,
    fun hs => ⟨fun hv => ?_, fun _ hb => ?_, fun hv hb => step_start hs hv hb⟩⟩
  · rw [step_write hs, ofNat_mod_two_pow]
    rfl
  · rw [step_write hs, ofNat_mod_two_pow]
    rfl
  · rw [step_write hs, ← testBit_zero_eq]
    rfl
  · rw [step_write hs, ← testBit_zero_eq]
    rfl
  · rw [step_write hs, hostWrite_ctrl_ignored (.inl hv)]
    rfl
  · rw [step_write hs, hostWrite_ctrl_ignored (s := setScript rest s) (.inr hb)]
    rfl

/-- A register write leaves the moves to come. -/
theorem hostWrite_script (r : HostReg) (v : Nat) (s : State) : (hostWrite r v s).script = s.script := by
  cases r with
  | ctrl =>
    rw [hostWrite]
    split
    · exact passStart_script s
    · rfl
  | _ => rfl

/-- Settles O34: while a pass runs a write leaves the pass by `hostWrite_cases`; of the registers it writes one. -/
theorem writesDuringAPassDoNotTouchIt : Obligations.WritesDuringAPassDoNotTouchIt := by
  unfold Obligations.WritesDuringAPassDoNotTouchIt
  intro s r v rest hs hb
  have hsame : SamePass s (hostWrite r v (setScript rest s)) := by
    obtain ⟨-, -, hidle, -⟩ | h := hostWrite_cases r v (setScript rest s)
    · rw [setScript_busy, hb] at hidle
      cases hidle
    · exact ⟨h.session, h.items, h.busy, h.done, h.digital, h.analog⟩
  refine ⟨_, step_write hs, hsame.session, hsame.items, hsame.busy.trans hb, hsame.done,
    ⟨fun _ => by rw [hsame.digital], fun _ => by rw [hsame.analog]⟩, hsame.levelAt, hostWrite_script _ _ _, ?_, ?_, ?_, ?_,
    ?_, ?_, ?_⟩
  all_goals rintro rfl
  · rw [hostWrite_ctrl_ignored (s := setScript rest s) (.inr hb)]
    exact ⟨rfl, rfl, rfl, rfl, rfl, rfl⟩
  · rfl
  · rfl
  · exact BitVec.toNat_ofNat v 32
  · exact BitVec.toNat_ofNat v 32
  · exact testBit_zero_eq v
  · exact testBit_zero_eq v

/-! ## Item reads -/

theorem hostReadItem_busy {s : State} (hb : s.busy = true) (slot : Nat) : hostReadItem slot s =
    .next { s with answer := .item (Config.freeItem s.fresh), fresh := s.fresh + 1 } :=
  if_pos hb

theorem hostReadItem_present {s : State} (hb : s.busy = false) {slot : Nat} {it : Item} (h : s.items[slot]? = some it) :
    hostReadItem slot s = .next { s with answer := .item it } := by
  rw [hostReadItem, if_neg (by simp [hb]), h]

theorem hostReadItem_absent {s : State} (hb : s.busy = false) {slot : Nat} (h : s.items.length ≤ slot) :
    hostReadItem slot s = .fault (.itemSlotAbsent slot) := by
  rw [hostReadItem, if_neg (by simp [hb]), List.getElem?_eq_none h]

/-- Settles O35: every such read has a next state, which differs in the answer and the free-value counter. -/
theorem hostReadsHaveNoSideEffect : Obligations.HostReadsHaveNoSideEffect := by
  unfold Obligations.HostReadsHaveNoSideEffect
  intro s op rest hop hs
  have hread : ∃ answer fresh, step s = .next { s with script := rest, answer := answer, fresh := fresh } := by
    rw [step_host hs]
    obtain ⟨r, rfl⟩ | ⟨slot, rfl, hslot⟩ := hop
    · rw [hostMove, hostRead]
      split
      all_goals exact ⟨_, _, rfl⟩
    · by_cases hb : s.busy = true
      · exact ⟨_, _, hostReadItem_busy (s := setScript rest s) hb slot⟩
      · exact ⟨_, _, hostReadItem_present (s := setScript rest s) (Bool.eq_false_iff.2 hb)
          (List.getElem?_eq_getElem (hslot.resolve_left hb))⟩
  obtain ⟨answer, fresh, e⟩ := hread
  exact ⟨_, e, rfl, ⟨rfl, rfl, rfl, rfl, rfl, rfl⟩, ⟨fun _ => rfl, fun _ => rfl⟩,
    ⟨rfl, rfl, rfl, rfl, rfl, rfl, rfl, rfl, rfl⟩, ⟨rfl, rfl, rfl⟩, rfl, rfl, rfl⟩

/-- Settles O36: with no pass running a read looks the slot up in the store. -/
theorem itemSlotsReadBack : Obligations.ItemSlotsReadBack := by
  unfold Obligations.ItemSlotsReadBack
  intro s slot rest hs hb
  exact ⟨fun it hit => (step_host hs).trans (hostReadItem_present (s := setScript rest s) hb hit),
    fun hslot => (step_host hs).trans (hostReadItem_absent (s := setScript rest s) hb hslot)⟩

/-! ## Samples -/

/-- Settles O37: the store is `Memory.write`, and `Memory.read_write` says what reads back. -/
theorem storedSamplesReadBack : Obligations.StoredSamplesReadBack := by
  unfold Obligations.StoredSamplesReadBack
  intro s i rest hb hdigital hanalog
  have hidle : ¬ (setScript rest s).busy = true := by simp [hb]
  refine ⟨fun v hs => ?_, fun v hs => ?_⟩
  · refine ⟨_, (step_host hs).trans (if_neg hidle), ?_, fun k hk => ?_, rfl, ⟨rfl, rfl, rfl, rfl, rfl, rfl⟩,
      ⟨rfl, rfl, rfl, rfl, rfl, rfl, rfl, rfl, rfl⟩, rfl, rfl⟩
    · exact (Memory.read_write i i v hdigital).trans (if_pos rfl)
    · exact (Memory.read_write i k v hdigital).trans (if_neg hk)
  · refine ⟨_, (step_host hs).trans (if_neg hidle), ?_, fun k hk => ?_, rfl, ⟨rfl, rfl, rfl, rfl, rfl, rfl⟩,
      ⟨rfl, rfl, rfl, rfl, rfl, rfl, rfl, rfl, rfl⟩, rfl, rfl⟩
    · exact (Memory.read_write i i v hanalog).trans (if_pos rfl)
    · exact (Memory.read_write i k v hanalog).trans (if_neg hk)

/-- Settles O38: the owner's stores test BUSY first. -/
theorem sampleStoreDuringAPassIsRefused : Obligations.SampleStoreDuringAPassIsRefused := by
  unfold Obligations.SampleStoreDuringAPassIsRefused
  intro s i rest hb
  exact ⟨fun v hs => (step_host hs).trans (if_pos hb), fun v hs => (step_host hs).trans (if_pos hb)⟩

/-- Settles O39: the level of an analog sample is the comparison of places with the threshold, which equality meets. -/
theorem levelOfASample : Obligations.LevelOfASample := by
  unfold Obligations.LevelOfASample
  have hanalog (s : State) (i : Nat) : levelOf s true i = true ↔
      Config.analogPlace (Memory.read unwrittenSample i s.analog) ≥ Config.analogPlace Config.threshold :=
    decide_eq_true_iff
  refine ⟨fun s i => rfl, hanalog, fun s i hat => ?_⟩
  rw [hanalog, hat]

/-! ## Reset and the start offset -/

/-- An encoder with no symbol to send does nothing. -/
theorem encoderStep_inactive {s : State} (h : encoderActive s = false) : encoderStep exec s = .next s := by
  have hnone : s.encFrame = none ∧ s.encQueue = [] := by simpa [encoderActive] using h
  rw [encoderStep, encoderFetch, hnone.1, hnone.2]

/-- Settles O26: the fields of `hardwareReset` are read off; after it nobody has anything to do. -/
theorem hardwareResetAbandonsThePass : Obligations.HardwareResetAbandonsThePass := by
  unfold Obligations.HardwareResetAbandonsThePass
  intro s rest hs
  refine ⟨_, step_host hs, rfl, rfl, rfl, rfl, rfl, rfl, rfl, rfl, ⟨fun _ => rfl, fun _ => rfl⟩, ⟨rfl, rfl, rfl⟩, rfl,
    fun hrest hidle => ?_⟩
  rw [step_resting hrest rfl, encoderStep_inactive hidle]

/-- Settles O28: a start sets the cursor to `startOffsetOf`, the offset supplied if it is valid and in range. -/
theorem startOffsetInRangeOrZero : Obligations.StartOffsetInRangeOrZero := by
  unfold Obligations.StartOffsetInRangeOrZero
  intro s
  rw [passStart_pc, startOffsetOf_eq]
  refine ⟨fun hvalid hin => if_pos ⟨hvalid, hin⟩, fun hout => if_neg ?_, passStart_total s⟩
  rintro ⟨hvalid, hin⟩
  exact hout.elim (Bool.eq_false_iff.1 · hvalid) hin.not_ge

end Sys2Proof.Proofs
end

section
/-! The decode pass as a whole (R88, R91): each step of a running pass leaves the items the pass will end with, and brings
its end nearer. -/

namespace Sys2Proof.Proofs

open Sys2Proof Sys2Proof.Machine

variable {s t : State}

/-! ## The items a pass will end with -/

/-- The levels from index `i` up to `total`. -/
def levelsFrom (s : State) (i : Nat) : List Level := (List.range' i (s.total - i)).map (levelAt s)

/-- The items in the store at the end of the pass: those stored, and those of the levels left to scan. -/
def passItems (s : State) : List Item :=
  s.items ++ itemsFrom s.n s.total s.pc (sessionOf s) (levelsFrom s s.pc)

/-- The levels left to scan are the run at the cursor and those after it (R111). -/
theorem levelsFrom_pc (hp : s.pc < s.total) :
    levelsFrom s s.pc = List.replicate (nextRun s).len (levelAt s s.pc) ++ levelsFrom s (nextRun s).after := by
  have hend := nextRun_end_le_total hp
  have hlen : s.total - s.pc = (nextRun s).len + (s.total - (s.pc + (nextRun s).len)) := by omega
  rw [levelsFrom, hlen, ← List.range'_append_1, List.map_append, nextRun_after, levelsFrom]
  refine congrArg (· ++ _) (List.eq_replicate_iff.2 ⟨by simp, fun v hv => ?_⟩)
  obtain ⟨i, hi, rfl⟩ := List.mem_map.1 hv
  obtain ⟨hfrom, hto⟩ := List.mem_range'_1.1 hi
  exact levelAt_of_mem_nextRun hfrom hto

theorem levelsFrom_of_total_le {i : Nat} (h : s.total ≤ i) : levelsFrom s i = [] := by
  rw [levelsFrom, Nat.sub_eq_zero_of_le h]
  rfl

/-- After the run at the cursor the level changes. -/
theorem levelsFrom_after_head? (s : State) : (levelsFrom s (nextRun s).after).head? ≠ some (levelAt s s.pc) := by
  by_cases hmore : (nextRun s).after < s.total
  · have hlen : s.total - (nextRun s).after = s.total - (nextRun s).after - 1 + 1 := by omega
    rw [levelsFrom, hlen, List.range'_succ, List.map_cons, List.head?_cons]
    exact fun h => levelAt_end_nextRun_ne hmore (Option.some.inj h)
  · rw [levelsFrom_of_total_le (by omega)]
    simp

/-- Scanning a run and taking its transition leaves the items the pass will end with. -/
theorem passItems_afterRun (hp : s.pc < s.total) : passItems (afterRun s) = passItems s := by
  have hrun := itemsFrom_run (nextRun_len_pos s) (levelsFrom_after_head? s) s.n s.total s.pc (sessionOf s)
  rw [passItems, passItems, levelsFrom_pc hp, hrun, afterRun_items, List.append_assoc]
  rfl

theorem passItems_of_ended (h : s.total ≤ s.pc) : passItems s = s.items := by
  rw [passItems, levelsFrom_of_total_le h]
  exact List.append_nil _

theorem SamePass.passItems (h : SamePass s t) : passItems t = passItems s := by
  have hlevels : Machine.levelAt t = Machine.levelAt s := funext h.levelAt
  obtain ⟨hn, -, -, -, -, -, hpc, htotal, -⟩ := h.session
  simp only [Proofs.passItems, levelsFrom, h.sessionOf, h.items, hn, htotal, hpc, hlevels]

/-! ## The end of a pass (R88) -/

theorem stepN_succ {u : State} (h : step s = .next u) (k : Nat) : stepN (k + 1) s = stepN k u := by
  rw [stepN, h]

theorem stepN_one {u : State} (h : step s = .next u) : stepN 1 s = .next u := stepN_succ h 0

/-- The pass has ended `k` steps after `s`, with the items it had to. -/
structure EndsAfter (k : Nat) (s t : State) : Prop where
  run : stepN k s = .next t
  busy : t.busy = false
  done : t.done = true
  pc : t.pc = t.total
  total : t.total = s.total
  items : t.items = passItems s

/-- One step more before the same end. -/
theorem EndsAfter.succ {u : State} {k : Nat} (h : EndsAfter k u t) (hstep : step s = .next u)
    (htotal : u.total = s.total) (hitems : passItems u = passItems s) : EndsAfter (k + 1) s t where
  run := (stepN_succ hstep k).trans h.run
  busy := h.busy
  done := h.done
  pc := h.pc
  total := h.total.trans htotal
  items := h.items.trans hitems

/-- With no host move to come the next move is the pass's or the encoder's. -/
theorem script_cases (hs : ∀ m ∈ s.script, m = .decoder ∨ m = .encoder) :
    (s.script = [] ∨ ∃ rest, s.script = .decoder :: rest) ∨ ∃ rest, s.script = .encoder :: rest := by
  cases hscript : s.script with
  | nil => exact .inl (.inl rfl)
  | cons m rest =>
    obtain rfl | rfl := hs m (by simp [hscript])
    · exact .inl (.inr ⟨rest, rfl⟩)
    · exact .inr ⟨rest, rfl⟩

/-- A running pass without host moves to come ends: each of its own steps scans a sample at least, each step of the encoder
uses up a move. -/
theorem exists_endsAfter (hs : ∀ m ∈ s.script, m = .decoder ∨ m = .encoder) (hb : s.busy = true) (hp : s.pc < s.total) :
    ∃ k t, k ≤ s.total - s.pc + s.script.count .encoder ∧ EndsAfter k s t := by
  induction hm : s.total - s.pc + s.script.count .encoder using Nat.strong_induction_on generalizing s with
  | _ m ih =>
    subst hm
    obtain hpass | ⟨rest, hrest⟩ := script_cases hs
    · have hstep := step_pass_running hpass hb hp
      have hpos := nextRun_len_pos s
      have hend := nextRun_end_le_total hp
      have hafter := nextRun_after s
      by_cases hmore : (nextRun s).after < s.total
      · rw [finishPass_running (s := afterRun s) hmore] at hstep
        have hcount : s.script.tail.count .encoder ≤ s.script.count .encoder := (List.tail_sublist _).count_le _
        obtain ⟨k, t, hk, hends⟩ := ih _ (show s.total - (nextRun s).after + s.script.tail.count .encoder < _ by omega)
          (s := setScript s.script.tail (afterRun s)) (fun m hm => hs m (List.mem_of_mem_tail hm)) hb hmore rfl
        exact ⟨k + 1, t, by omega, hends.succ hstep rfl
          ((samePass_update _).passItems.trans (passItems_afterRun hp))⟩
      · rw [finishPass_ended (s := afterRun s) hmore] at hstep
        have hitems := passItems_of_ended (s := afterRun s) (Nat.le_of_not_lt hmore)
        rw [passItems_afterRun hp] at hitems
        exact ⟨1, _, by omega,
          { run := stepN_one hstep
            busy := rfl
            done := rfl
            pc := by simp; omega
            total := by simp
            items := by simpa using hitems.symm }⟩
    · obtain ⟨queue, frame, out, hnext⟩ := encoderStep_next (setScript rest s)
      have hstep := (step_encoder hrest).trans hnext
      have hcount : s.script.count .encoder = rest.count .encoder + 1 := by rw [hrest, List.count_cons_self]
      obtain ⟨k, t, hk, hends⟩ := ih _ (show s.total - s.pc + rest.count .encoder < _ by omega)
        (s := { setScript rest s with encQueue := queue, encFrame := frame, encOut := out })
        (fun m hm => hs m (by rw [hrest]; exact List.mem_cons_of_mem _ hm)) hb hp rfl
      exact ⟨k + 1, t, by omega, hends.succ hstep rfl (samePass_update s).passItems⟩

/-- A start that leaves a pass running leaves it samples to scan. -/
theorem passStart_ready (hruns : startRuns s = true) :
    (passStart s).busy = true ∧ (passStart s).pc < (passStart s).total := by
  rw [passStart_busy, passStart_pc, passStart_total]
  exact ⟨hruns, (startOffsetOf_lt_iff ..).2 ((startRuns_iff s).1 hruns).2⟩

/-- Settles O48: `exists_endsAfter`; after a start that leaves no pass running there is nothing to wait for. -/
theorem everyPassEnds : Obligations.EveryPassEnds := by
  unfold Obligations.EveryPassEnds
  refine ⟨fun s hs hb hp => ?_, fun s v rest hs hrest hv hb => ?_⟩
  · obtain ⟨k, t, hk, hends⟩ := exists_endsAfter hs hb hp
    exact ⟨k, t, hk, hends.run, hends.busy, hends.done, hends.pc, hends.total⟩
  · have hstart := step_start hs hv hb
    cases hruns : startRuns s with
    | true =>
      obtain ⟨hbusy, hp⟩ := passStart_ready (s := setScript rest s) hruns
      obtain ⟨k, t, hk, hends⟩ := exists_endsAfter (by rwa [passStart_script]) hbusy hp
      rw [passStart_pc, passStart_total, passStart_script] at hk
      exact ⟨k + 1, t, by simp at hk; omega, (stepN_succ hstart k).trans hends.run, hends.busy, hends.done⟩
    | false =>
      refine ⟨1, _, by omega, stepN_one hstart, ?_, ?_⟩
      · rw [passStart_busy]
        exact hruns
      · rw [passStart_done]
        exact congrArg not hruns

/-! ## The items of a pass (R91) -/

/-- The values that the free registers hold at PASS.START do not show in the items (R36): two passes that begin alike but for
them run in step. -/
theorem passItems_passStart (hs : s.script = []) (hruns : startRuns s = true) :
    passItems (passStart s) = passItems (setSession Session.start [] (passStart s)) := by
  obtain ⟨hb, hp⟩ := passStart_ready hruns
  have hmoves : ∀ m ∈ (passStart s).script, m = .decoder ∨ m = .encoder := by simp [hs]
  have hagree : AgreeOn False False (passStart s) (setSession Session.start [] (passStart s)) :=
    { scripts := by simp [hs]
      busy := rfl, done := rfl
      status := by simp
      items := (passStart_items s).symm
      n := rfl, total := rfl, pc := rfl
      fsm := (passStart_fsm s).symm
      pend := (passStart_pend s).symm
      levels := fun _ _ => rfl
      fsi := False.elim, value := False.elim, bitCount := False.elim }
  obtain ⟨k, t, -, ht⟩ := exists_endsAfter hmoves hb hp
  obtain ⟨j, w, -, hw⟩ := exists_endsAfter (s := setSession Session.start [] (passStart s)) hmoves hb hp
  rw [← ht.items, ← hw.items]
  exact ((hagree.inStep_idle (passStart_fsm s)).items_eq ht.run ht.done hw.run hw.done).symm

/-- At a start the levels left to scan are those of the selected source from the start offset on. -/
theorem levelsFrom_passStart (s : State) (i : Nat) : levelsFrom (passStart s) i = (sourceLevels s).drop i := by
  rw [levelsFrom, sourceLevels, passStart_total, List.range_eq_range', ← List.map_drop, List.drop_range']
  simp [passStart_levelAt]

theorem sourceLevels_length (s : State) : (sourceLevels s).length = s.length := by simp [sourceLevels]

/-- The items of a pass that a start leaves running are those of the pure function. -/
theorem passItems_eq_decodePass (hs : s.script = []) (hruns : startRuns s = true) : passItems (passStart s) =
    decodePass (sourceLevels s) s.sampleRate.toNat s.baudRate.toNat s.startOffsetValid s.startOffset := by
  rw [passItems_passStart hs hruns, decodePass_of_le ((startRuns_iff s).1 hruns).1, sourceLevels_length, passItems,
    setSession_items, List.nil_append, sessionOf_setSession, setSession_n, setSession_total, setSession_pc, passStart_n,
    passStart_total, passStart_pc]
  exact congrArg (fun w => itemsOfRuns _ _ _ _ (runsOf w)) (levelsFrom_passStart s _)

/-- Settles O49: the pass ends with the items of `passItems`; a start that leaves no pass running has nothing to decode. -/
theorem passComputesDecode : Obligations.PassComputesDecode := by
  unfold Obligations.PassComputesDecode
  intro s v hs hv hb
  have hstart := step_start hs hv hb
  cases hruns : startRuns s with
  | true =>
    obtain ⟨hbusy, hp⟩ := passStart_ready (s := setScript [] s) hruns
    obtain ⟨k, t, -, hends⟩ := exists_endsAfter (by simp) hbusy hp
    exact ⟨k + 1, t, (stepN_succ hstart k).trans hends.run, Nat.le_add_left 1 k, hends.busy, hends.done,
      hends.items.trans (passItems_eq_decodePass (s := setScript [] s) rfl hruns)⟩
  | false =>
    refine ⟨1, _, stepN_one hstart, le_rfl, (passStart_busy _).trans hruns,
      (passStart_done _).trans (congrArg not hruns), ?_⟩
    rw [passStart_items]
    obtain hn | hlen := (startRuns_eq_false_iff s).1 hruns
    · exact (decodePass_of_lt hn _ _ _).symm
    · have hnil : sourceLevels s = [] := by rw [sourceLevels, hlen]; rfl
      by_cases hn : 3 ≤ computeN s.sampleRate.toNat s.baudRate.toNat
      · rw [decodePass_of_le hn, hnil, List.drop_nil, runsOf_nil, itemsOfRuns_nil]
      · exact (decodePass_of_lt (Nat.lt_of_not_ge hn) _ _ _).symm

end Sys2Proof.Proofs
end

section
/-! A call of the encoder (R160, R165, R166): each step moves one pair from the levels still to be sent to the output. -/

namespace Sys2Proof.Proofs

open Sys2Proof Sys2Proof.Machine

/-- The levels the encoder has still to send: the rest of the frame it is in, then the frames not yet begun. -/
def levelsToSend (frame : Option (List Bool)) (queue : List (List Bool)) : List Level :=
  match frame with
  | none => encodeFrames queue
  | some bits => bits.flatMap pairOf ++ [true, true] ++ encodeFrames queue

theorem encodeFrames_cons (bits : List Bool) (queue : List (List Bool)) :
    encodeFrames (bits :: queue) = encodeBits bits ++ encodeFrames queue := List.flatMap_cons

/-- A step of the encoder sends the first pair of what is to be sent. -/
theorem encoderStep_sends {s : State} (h : encoderActive s = true) : ∃ queue frame a b,
    encoderStep exec s = .next { s with encQueue := queue, encFrame := frame, encOut := s.encOut ++ [a, b] } ∧
    levelsToSend s.encFrame s.encQueue = a :: b :: levelsToSend frame queue := by
  rw [encoderStep, encoderFetch]
  cases hframe : s.encFrame with
  | none =>
    cases hqueue : s.encQueue with
    | nil => simp [encoderActive, hframe, hqueue] at h
    | cons bits queue =>
      exact ⟨_, _, _, _, exec_encStart _, by rw [levelsToSend, encodeFrames_cons, encodeBits_eq]; rfl⟩
  | some bits =>
    match bits with
    | [] => exact ⟨_, _, _, _, exec_encIdle _, rfl⟩
    | true :: bits => exact ⟨_, _, _, _, exec_encBit1 _, rfl⟩
    | false :: bits => exact ⟨_, _, _, _, exec_encBit0 _, rfl⟩

theorem levelsToSend_of_inactive {s : State} (h : encoderActive s = false) : levelsToSend s.encFrame s.encQueue = [] := by
  have hnone : s.encFrame = none ∧ s.encQueue = [] := by simpa [encoderActive] using h
  rw [hnone.1, hnone.2]
  rfl

/-- With no pass running and no moves to come the encoder sends what it has to send, and nothing else changes. -/
theorem encoder_runs {s : State} (hs : s.script = []) (hb : s.busy = false) : ∃ k queue frame,
    stepN k s = .next { s with
      encQueue := queue, encFrame := frame, encOut := s.encOut ++ levelsToSend s.encFrame s.encQueue } ∧
    encoderActive { s with encQueue := queue, encFrame := frame } = false := by
  induction hm : (levelsToSend s.encFrame s.encQueue).length using Nat.strong_induction_on generalizing s with
  | _ m ih =>
    cases hactive : encoderActive s with
    | false => exact ⟨0, s.encQueue, s.encFrame, by rw [levelsToSend_of_inactive hactive, List.append_nil]; rfl, hactive⟩
    | true =>
      obtain ⟨queue, frame, a, b, hstep, hlevels⟩ := encoderStep_sends hactive
      obtain ⟨k, queue', frame', hrun, hdone⟩ := ih _ (by rw [← hm, hlevels]; simp)
        (s := { s with encQueue := queue, encFrame := frame, encOut := s.encOut ++ [a, b] }) hs hb rfl
      refine ⟨k + 1, queue', frame', ?_, hdone⟩
      rw [stepN_succ ((step_resting hs hb).trans hstep), hrun, hlevels, List.append_assoc]
      rfl

/-- Settles O56: after the call the levels to send are the encoded frames, and the encoder runs until none is left. -/
theorem encoderRunComputesEncode : Obligations.EncoderRunComputesEncode := by
  unfold Obligations.EncoderRunComputesEncode
  intro s frames hs hb
  obtain ⟨k, queue, frame, hrun, hdone⟩ := encoder_runs (s := encoderCall frames (setScript [] s)) rfl hb
  exact ⟨k + 1, _, (stepN_succ (step_host hs) k).trans hrun, rfl, hdone, ⟨rfl, rfl, rfl, rfl, rfl, rfl, rfl, rfl, rfl⟩, rfl,
    ⟨rfl, rfl, rfl, rfl, rfl, rfl⟩, fun _ => rfl, fun _ => rfl⟩

end Sys2Proof.Proofs
end
